-- ==== Sys2Proof/Word.lean ====
section
/-! DEFINITION. The two word types of the hardware (00_scope.md R9): 8-bit data, 16-bit addresses. -/
namespace Sys2Proof

/-- Data width: A, X, Y, SP, P and a memory cell (R9). -/
abbrev Byte := BitVec 8

/-- Address and PC width (R9). -/
abbrev Word := BitVec 16

end Sys2Proof
end

