-- ==== Sys2Proof/Config.lean ====
section
/-! DEFINITION. The open parameters of 00_scope.md R10, as types. Their decided values are `Machine.decided`
in Machine/Operands.lean. The spec leaves no value free (R311), so there is no opaque constant. -/
namespace Sys2Proof

/-- DECIMAL_POLICY (R10, D11): what ADC and SBC do when P.D is 1. -/
inductive DecimalPolicy where
  | ignore
  | refuse
  deriving DecidableEq, Repr

/-- UNDEFINED_POLICY (R10, D10): what an undefined opcode does. -/
inductive UndefinedPolicy where
  | nopDiagnostic
  | refuse
  deriving DecidableEq, Repr

/-- The three open parameters of R10, fixed for one machine. -/
structure Config where
  /-- JMP_IND_PAGE_WRAP (R10, D8). -/
  jmpIndPageWrap : Bool
  decimalPolicy : DecimalPolicy
  undefinedPolicy : UndefinedPolicy
  deriving DecidableEq, Repr

end Sys2Proof
end

