-- ==== Sys2Proof/Machine/Bits.lean ====
section
/-! DEFINITION. The bit-field, extension and byte-order helpers of 00_scope.md R13 and R14. -/
namespace Sys2Proof

/-- `{h, l}`: the 16-bit value `h * 256 + l` (R13). -/
def join (h l : Byte) : Word := h ++ l

/-- `v[15:8]` (R13). -/
def hiByte (v : Word) : Byte := v.extractLsb' 8 8

/-- `v[7:0]` (R13). -/
def loByte (v : Word) : Byte := v.extractLsb' 0 8

/-- `zext_16` (R14). -/
def zext16 (v : Byte) : Word := v.setWidth 16

/-- `sext_16` (R14). -/
def sext16 (v : Byte) : Word := v.signExtend 16

/-- A Bool as the 1-bit number the pseudocode adds or shifts in. -/
def carryByte (c : Bool) : Byte := if c then 1 else 0

end Sys2Proof
end

