-- ==== Sys2Proof/Syntax.lean ====
section
/-! DEFINITION. The instructions: one constructor per operation identity of the opcode table (30_encoding.md R95,
R97), the addressing mode being the shape of its operand. A row of spec/opcode_table.json is a constructor at one
mode; the 105 rows UNDEFINED are one constructor at their byte. -/
namespace Sys2Proof

/-- The 13 addressing modes and Invalid (R95, R121 to R134). -/
inductive Mode where
  | implicit | accumulator | immediate | zeroPage | zeroPageX | zeroPageY | relative
  | absolute | absoluteX | absoluteY | indirect | indirectX | indirectY | invalid
  deriving DecidableEq, Repr

/-- An operand that is a memory byte: the modes whose resolver answers an address of data. -/
inductive MemOperand where
  | zeroPage (zp : Byte)
  | zeroPageX (zp : Byte)
  | zeroPageY (zp : Byte)
  | absolute (addr : Word)
  | absoluteX (addr : Word)
  | absoluteY (addr : Word)
  | indirectX (zp : Byte)
  | indirectY (zp : Byte)
  deriving DecidableEq, Repr

/-- An operand that is read: the byte in the instruction, or a memory byte (R123, R138). -/
inductive ReadOperand where
  | immediate (imm : Byte)
  | mem (m : MemOperand)
  deriving DecidableEq, Repr

/-- The target of a shift or rotate: A, or a memory byte (R220). -/
inductive ShiftOperand where
  | accumulator
  | mem (m : MemOperand)
  deriving DecidableEq, Repr

/-- The operand of JMP (R249). -/
inductive JumpOperand where
  | absolute (addr : Word)
  | indirect (ptr : Word)
  deriving DecidableEq, Repr

/-- The 56 mnemonics of R97 and the undefined opcode of R98. -/
inductive Instr where
  -- 41_load_store_transfer.md
  | lda (op : ReadOperand)
  | ldx (op : ReadOperand)
  | ldy (op : ReadOperand)
  | sta (op : MemOperand)
  | stx (op : MemOperand)
  | sty (op : MemOperand)
  | tax | tay | txa | tya | tsx | txs
  -- 42_arithmetic_logic.md
  | adc (op : ReadOperand)
  | sbc (op : ReadOperand)
  | and (op : ReadOperand)
  | ora (op : ReadOperand)
  | eor (op : ReadOperand)
  | bit (op : MemOperand)
  | cmp (op : ReadOperand)
  | cpx (op : ReadOperand)
  | cpy (op : ReadOperand)
  | inc (op : MemOperand)
  | dec (op : MemOperand)
  | inx | iny | dex | dey
  -- 43_shift_rotate.md
  | asl (op : ShiftOperand)
  | lsr (op : ShiftOperand)
  | rol (op : ShiftOperand)
  | ror (op : ShiftOperand)
  -- 44_control_transfer.md
  | bpl (disp : Byte)
  | bmi (disp : Byte)
  | bvc (disp : Byte)
  | bvs (disp : Byte)
  | bcc (disp : Byte)
  | bcs (disp : Byte)
  | bne (disp : Byte)
  | beq (disp : Byte)
  | jmp (op : JumpOperand)
  | jsr (addr : Word)
  | rts | brk | rti
  -- 45_stack_flag_misc.md
  | pha | php | pla | plp
  | clc | sec | cli | sei | cld | sed | clv
  | nop
  | undefined (op : Byte)
  deriving DecidableEq, Repr

def MemOperand.mode : MemOperand → Mode
  | .zeroPage _ => .zeroPage
  | .zeroPageX _ => .zeroPageX
  | .zeroPageY _ => .zeroPageY
  | .absolute _ => .absolute
  | .absoluteX _ => .absoluteX
  | .absoluteY _ => .absoluteY
  | .indirectX _ => .indirectX
  | .indirectY _ => .indirectY

def ReadOperand.mode : ReadOperand → Mode
  | .immediate _ => .immediate
  | .mem m => m.mode

def ShiftOperand.mode : ShiftOperand → Mode
  | .accumulator => .accumulator
  | .mem m => m.mode

def JumpOperand.mode : JumpOperand → Mode
  | .absolute _ => .absolute
  | .indirect _ => .indirect

/-- The addressing mode of an instruction: the second half of the dispatcher's pair (R95). -/
def Instr.mode : Instr → Mode
  | .lda op => op.mode
  | .ldx op => op.mode
  | .ldy op => op.mode
  | .sta op => op.mode
  | .stx op => op.mode
  | .sty op => op.mode
  | .tax => .implicit
  | .tay => .implicit
  | .txa => .implicit
  | .tya => .implicit
  | .tsx => .implicit
  | .txs => .implicit
  | .adc op => op.mode
  | .sbc op => op.mode
  | .and op => op.mode
  | .ora op => op.mode
  | .eor op => op.mode
  | .bit op => op.mode
  | .cmp op => op.mode
  | .cpx op => op.mode
  | .cpy op => op.mode
  | .inc op => op.mode
  | .dec op => op.mode
  | .inx => .implicit
  | .iny => .implicit
  | .dex => .implicit
  | .dey => .implicit
  | .asl op => op.mode
  | .lsr op => op.mode
  | .rol op => op.mode
  | .ror op => op.mode
  | .bpl _ => .relative
  | .bmi _ => .relative
  | .bvc _ => .relative
  | .bvs _ => .relative
  | .bcc _ => .relative
  | .bcs _ => .relative
  | .bne _ => .relative
  | .beq _ => .relative
  | .jmp op => op.mode
  | .jsr _ => .absolute
  | .rts => .implicit
  | .brk => .implicit
  | .rti => .implicit
  | .pha => .implicit
  | .php => .implicit
  | .pla => .implicit
  | .plp => .implicit
  | .clc => .implicit
  | .sec => .implicit
  | .cli => .implicit
  | .sei => .implicit
  | .cld => .implicit
  | .sed => .implicit
  | .clv => .implicit
  | .nop => .implicit
  | .undefined _ => .invalid

end Sys2Proof
end

