-- ==== Sys2Proof/WellFormed.lean ====
section
/-! DEFINITION. Which terms of `Instr` are instructions of the hardware: the mnemonic has the operand's mode
(30_encoding.md R97), and an undefined opcode carries a byte of R98. -/
namespace Sys2Proof

/-- The eight modes of the accumulator's read instructions (the ADC row of R97). -/
def accReadModes : List Mode :=
  [.immediate, .zeroPage, .zeroPageX, .absolute, .absoluteX, .absoluteY, .indirectX, .indirectY]

/-- The modes of the shifts and rotates (the ASL row of R97). -/
def shiftModes : List Mode := [.accumulator, .zeroPage, .zeroPageX, .absolute, .absoluteX]

/-- The non-empty cells of an instruction's row of R97. -/
def Instr.forms : Instr → List Mode
  | .lda _ => accReadModes
  | .ldx _ => [.immediate, .zeroPage, .zeroPageY, .absolute, .absoluteY]
  | .ldy _ => [.immediate, .zeroPage, .zeroPageX, .absolute, .absoluteX]
  | .sta _ => [.zeroPage, .zeroPageX, .absolute, .absoluteX, .absoluteY, .indirectX, .indirectY]
  | .stx _ => [.zeroPage, .zeroPageY, .absolute]
  | .sty _ => [.zeroPage, .zeroPageX, .absolute]
  | .tax => [.implicit]
  | .tay => [.implicit]
  | .txa => [.implicit]
  | .tya => [.implicit]
  | .tsx => [.implicit]
  | .txs => [.implicit]
  | .adc _ => accReadModes
  | .sbc _ => accReadModes
  | .and _ => accReadModes
  | .ora _ => accReadModes
  | .eor _ => accReadModes
  | .bit _ => [.zeroPage, .absolute]
  | .cmp _ => accReadModes
  | .cpx _ => [.immediate, .zeroPage, .absolute]
  | .cpy _ => [.immediate, .zeroPage, .absolute]
  | .inc _ => [.zeroPage, .zeroPageX, .absolute, .absoluteX]
  | .dec _ => [.zeroPage, .zeroPageX, .absolute, .absoluteX]
  | .inx => [.implicit]
  | .iny => [.implicit]
  | .dex => [.implicit]
  | .dey => [.implicit]
  | .asl _ => shiftModes
  | .lsr _ => shiftModes
  | .rol _ => shiftModes
  | .ror _ => shiftModes
  | .bpl _ => [.relative]
  | .bmi _ => [.relative]
  | .bvc _ => [.relative]
  | .bvs _ => [.relative]
  | .bcc _ => [.relative]
  | .bcs _ => [.relative]
  | .bne _ => [.relative]
  | .beq _ => [.relative]
  | .jmp _ => [.absolute, .indirect]
  | .jsr _ => [.absolute]
  | .rts => [.implicit]
  | .brk => [.implicit]
  | .rti => [.implicit]
  | .pha => [.implicit]
  | .php => [.implicit]
  | .pla => [.implicit]
  | .plp => [.implicit]
  | .clc => [.implicit]
  | .sec => [.implicit]
  | .cli => [.implicit]
  | .sei => [.implicit]
  | .cld => [.implicit]
  | .sed => [.implicit]
  | .clv => [.implicit]
  | .nop => [.implicit]
  | .undefined _ => [.invalid]

/-- The 105 undefined opcode bytes, as R98 lists them. -/
def undefinedOpcodes : List Byte :=
  [0x02, 0x03, 0x04, 0x07, 0x0B, 0x0C, 0x0F, 0x12, 0x13, 0x14, 0x17, 0x1A, 0x1B, 0x1C, 0x1F] ++
   [0x22, 0x23, 0x27, 0x2B, 0x2F, 0x32, 0x33, 0x34, 0x37, 0x3A, 0x3B, 0x3C, 0x3F, 0x42, 0x43] ++
   [0x44, 0x47, 0x4B, 0x4F, 0x52, 0x53, 0x54, 0x57, 0x5A, 0x5B, 0x5C, 0x5F, 0x62, 0x63, 0x64] ++
   [0x67, 0x6B, 0x6F, 0x72, 0x73, 0x74, 0x77, 0x7A, 0x7B, 0x7C, 0x7F, 0x80, 0x82, 0x83, 0x87] ++
   [0x89, 0x8B, 0x8F, 0x92, 0x93, 0x97, 0x9B, 0x9C, 0x9E, 0x9F, 0xA3, 0xA7, 0xAB, 0xAF, 0xB2] ++
   [0xB3, 0xB7, 0xBB, 0xBF, 0xC2, 0xC3, 0xC7, 0xCB, 0xCF, 0xD2, 0xD3, 0xD4, 0xD7, 0xDA, 0xDB] ++
   [0xDC, 0xDF, 0xE2, 0xE3, 0xE7, 0xEB, 0xEF, 0xF2, 0xF3, 0xF4, 0xF7, 0xFA, 0xFB, 0xFC, 0xFF]

/-- The byte of an undefined opcode is one of R98's; no other instruction has such a byte. -/
def Instr.byteAllowed : Instr → Bool
  | .undefined op => undefinedOpcodes.contains op
  | _ => true

/-- What `exec` does with an ill-formed term is a DESIGN CHOICE, safe (log entry 10).
Well-formed: the mode is a cell of the mnemonic's row, and the byte check holds. -/
def Instr.wellFormed (i : Instr) : Bool := i.forms.contains i.mode && i.byteAllowed

end Sys2Proof
end

