-- ==== Sys2Proof/Decode.lean ====
section
/-! DEFINITION. The opcode dispatcher, the decoder and the encoder (30_encoding.md). The dispatcher is the map of
R96, read by nibbles; the encoder is the table of R97, read by mnemonic. They are two transcriptions of two tables
of the spec. Their bytes are UNVERIFIED (D13), unsafe (log entry 4). -/
namespace Sys2Proof

/-- Operand width of each mode, in bytes (R92). -/
def Mode.width : Mode → Nat
  | .implicit => 0
  | .accumulator => 0
  | .immediate => 1
  | .zeroPage => 1
  | .zeroPageX => 1
  | .zeroPageY => 1
  | .relative => 1
  | .absolute => 2
  | .absoluteX => 2
  | .absoluteY => 2
  | .indirect => 2
  | .indirectX => 1
  | .indirectY => 1
  | .invalid => 0

/-- Length of an instruction in bytes (R93). -/
def Instr.length (i : Instr) : Nat := 1 + i.mode.width

/-! ## The dispatcher -/

/-- What an opcode byte tells (R90, R91): an instruction with no operand byte (format F1), or the instruction that
its one operand byte (F2) or its operand word (F3) completes. -/
inductive Form where
  | whole (i : Instr)
  | byte (f : Byte → Instr)
  | word (f : Word → Instr)

/-! The cells of R96, named by their mode. `rd` and `sh` put a memory mode under a read or a shift. -/

def rd (c : ReadOperand → Instr) : MemOperand → Instr := fun m => c (.mem m)
def sh (c : ShiftOperand → Instr) : MemOperand → Instr := fun m => c (.mem m)
def imp (i : Instr) : Form := .whole i
def und (op : Byte) : Form := .whole (.undefined op)
def accu (c : ShiftOperand → Instr) : Form := .whole (c .accumulator)
def imm (c : ReadOperand → Instr) : Form := .byte fun b => c (.immediate b)
def rel (c : Byte → Instr) : Form := .byte c
def zpg (c : MemOperand → Instr) : Form := .byte fun b => c (.zeroPage b)
def zpgX (c : MemOperand → Instr) : Form := .byte fun b => c (.zeroPageX b)
def zpgY (c : MemOperand → Instr) : Form := .byte fun b => c (.zeroPageY b)
def indX (c : MemOperand → Instr) : Form := .byte fun b => c (.indirectX b)
def indY (c : MemOperand → Instr) : Form := .byte fun b => c (.indirectY b)
def absl (c : MemOperand → Instr) : Form := .word fun w => c (.absolute w)
def abslX (c : MemOperand → Instr) : Form := .word fun w => c (.absoluteX w)
def abslY (c : MemOperand → Instr) : Form := .word fun w => c (.absoluteY w)
def jmpAbs : Form := .word fun w => .jmp (.absolute w)
def jmpInd : Form := .word fun w => .jmp (.indirect w)
def jsrAbs : Form := .word .jsr

/-! The map of R96, one list a row. A cell `--` is `und` at its byte (R98). -/

def opcodeRow0 : List Form :=
  [imp .brk, indX (rd .ora), und 0x02, und 0x03,
   und 0x04, zpg (rd .ora), zpg (sh .asl), und 0x07,
   imp .php, imm .ora, accu .asl, und 0x0B,
   und 0x0C, absl (rd .ora), absl (sh .asl), und 0x0F]

def opcodeRow1 : List Form :=
  [rel .bpl, indY (rd .ora), und 0x12, und 0x13,
   und 0x14, zpgX (rd .ora), zpgX (sh .asl), und 0x17,
   imp .clc, abslY (rd .ora), und 0x1A, und 0x1B,
   und 0x1C, abslX (rd .ora), abslX (sh .asl), und 0x1F]

def opcodeRow2 : List Form :=
  [jsrAbs, indX (rd .and), und 0x22, und 0x23,
   zpg .bit, zpg (rd .and), zpg (sh .rol), und 0x27,
   imp .plp, imm .and, accu .rol, und 0x2B,
   absl .bit, absl (rd .and), absl (sh .rol), und 0x2F]

def opcodeRow3 : List Form :=
  [rel .bmi, indY (rd .and), und 0x32, und 0x33,
   und 0x34, zpgX (rd .and), zpgX (sh .rol), und 0x37,
   imp .sec, abslY (rd .and), und 0x3A, und 0x3B,
   und 0x3C, abslX (rd .and), abslX (sh .rol), und 0x3F]

def opcodeRow4 : List Form :=
  [imp .rti, indX (rd .eor), und 0x42, und 0x43,
   und 0x44, zpg (rd .eor), zpg (sh .lsr), und 0x47,
   imp .pha, imm .eor, accu .lsr, und 0x4B,
   jmpAbs, absl (rd .eor), absl (sh .lsr), und 0x4F]

def opcodeRow5 : List Form :=
  [rel .bvc, indY (rd .eor), und 0x52, und 0x53,
   und 0x54, zpgX (rd .eor), zpgX (sh .lsr), und 0x57,
   imp .cli, abslY (rd .eor), und 0x5A, und 0x5B,
   und 0x5C, abslX (rd .eor), abslX (sh .lsr), und 0x5F]

def opcodeRow6 : List Form :=
  [imp .rts, indX (rd .adc), und 0x62, und 0x63,
   und 0x64, zpg (rd .adc), zpg (sh .ror), und 0x67,
   imp .pla, imm .adc, accu .ror, und 0x6B,
   jmpInd, absl (rd .adc), absl (sh .ror), und 0x6F]

def opcodeRow7 : List Form :=
  [rel .bvs, indY (rd .adc), und 0x72, und 0x73,
   und 0x74, zpgX (rd .adc), zpgX (sh .ror), und 0x77,
   imp .sei, abslY (rd .adc), und 0x7A, und 0x7B,
   und 0x7C, abslX (rd .adc), abslX (sh .ror), und 0x7F]

def opcodeRow8 : List Form :=
  [und 0x80, indX .sta, und 0x82, und 0x83,
   zpg .sty, zpg .sta, zpg .stx, und 0x87,
   imp .dey, und 0x89, imp .txa, und 0x8B,
   absl .sty, absl .sta, absl .stx, und 0x8F]

def opcodeRow9 : List Form :=
  [rel .bcc, indY .sta, und 0x92, und 0x93,
   zpgX .sty, zpgX .sta, zpgY .stx, und 0x97,
   imp .tya, abslY .sta, imp .txs, und 0x9B,
   und 0x9C, abslX .sta, und 0x9E, und 0x9F]

def opcodeRowA : List Form :=
  [imm .ldy, indX (rd .lda), imm .ldx, und 0xA3,
   zpg (rd .ldy), zpg (rd .lda), zpg (rd .ldx), und 0xA7,
   imp .tay, imm .lda, imp .tax, und 0xAB,
   absl (rd .ldy), absl (rd .lda), absl (rd .ldx), und 0xAF]

def opcodeRowB : List Form :=
  [rel .bcs, indY (rd .lda), und 0xB2, und 0xB3,
   zpgX (rd .ldy), zpgX (rd .lda), zpgY (rd .ldx), und 0xB7,
   imp .clv, abslY (rd .lda), imp .tsx, und 0xBB,
   abslX (rd .ldy), abslX (rd .lda), abslY (rd .ldx), und 0xBF]

def opcodeRowC : List Form :=
  [imm .cpy, indX (rd .cmp), und 0xC2, und 0xC3,
   zpg (rd .cpy), zpg (rd .cmp), zpg .dec, und 0xC7,
   imp .iny, imm .cmp, imp .dex, und 0xCB,
   absl (rd .cpy), absl (rd .cmp), absl .dec, und 0xCF]

def opcodeRowD : List Form :=
  [rel .bne, indY (rd .cmp), und 0xD2, und 0xD3,
   und 0xD4, zpgX (rd .cmp), zpgX .dec, und 0xD7,
   imp .cld, abslY (rd .cmp), und 0xDA, und 0xDB,
   und 0xDC, abslX (rd .cmp), abslX .dec, und 0xDF]

def opcodeRowE : List Form :=
  [imm .cpx, indX (rd .sbc), und 0xE2, und 0xE3,
   zpg (rd .cpx), zpg (rd .sbc), zpg .inc, und 0xE7,
   imp .inx, imm .sbc, imp .nop, und 0xEB,
   absl (rd .cpx), absl (rd .sbc), absl .inc, und 0xEF]

def opcodeRowF : List Form :=
  [rel .beq, indY (rd .sbc), und 0xF2, und 0xF3,
   und 0xF4, zpgX (rd .sbc), zpgX .inc, und 0xF7,
   imp .sed, abslY (rd .sbc), und 0xFA, und 0xFB,
   und 0xFC, abslX (rd .sbc), abslX .inc, und 0xFF]

/-- The whole map of R96: sixteen rows of sixteen cells. -/
def opcodeMap : List (List Form) :=
  [opcodeRow0, opcodeRow1, opcodeRow2, opcodeRow3, opcodeRow4, opcodeRow5, opcodeRow6, opcodeRow7] ++
  [opcodeRow8, opcodeRow9, opcodeRowA, opcodeRowB, opcodeRowC, opcodeRowD, opcodeRowE, opcodeRowF]

/-- The dispatcher: row is the high nibble, column the low nibble (R95, R96). It reads the opcode byte alone (R304).
Every byte has a cell, so the default, which is R98's outcome, is never taken. -/
def dispatch (op : Byte) : Form :=
  ((opcodeMap.getD (op.toNat / 16) []).getD (op.toNat % 16) (und op))

/-! ## The decoder -/

/-- Why a byte string is no instruction: it ends before the opcode, or before the operand bytes of its opcode. No
opcode byte is rejected (R95). DESIGN CHOICE, safe: the machine's fetch never meets this (log entry 20). -/
inductive DecodeError where
  | noOpcode
  | truncated (op : Byte)
  deriving DecidableEq, Repr

/-- Operand bytes stand low byte first (R94). -/
def decode : List Byte → Except DecodeError (Instr × List Byte)
  | [] => .error .noOpcode
  | op :: rest =>
    match dispatch op, rest with
    | .whole i, rest => .ok (i, rest)
    | .byte f, b :: rest => .ok (f b, rest)
    | .word f, lo :: hi :: rest => .ok (f (join hi lo), rest)
    | _, _ => .error (.truncated op)

/-! ## The encoder -/

/-- A row of R97: the opcode byte of each mode the mnemonic has. -/
structure OpcodeRow where
  implicit : Option Byte := none
  accumulator : Option Byte := none
  immediate : Option Byte := none
  zeroPage : Option Byte := none
  zeroPageX : Option Byte := none
  zeroPageY : Option Byte := none
  relative : Option Byte := none
  absolute : Option Byte := none
  absoluteX : Option Byte := none
  absoluteY : Option Byte := none
  indirect : Option Byte := none
  indirectX : Option Byte := none
  indirectY : Option Byte := none

def OpcodeRow.cell (r : OpcodeRow) : Mode → Option Byte
  | .implicit => r.implicit
  | .accumulator => r.accumulator
  | .immediate => r.immediate
  | .zeroPage => r.zeroPage
  | .zeroPageX => r.zeroPageX
  | .zeroPageY => r.zeroPageY
  | .relative => r.relative
  | .absolute => r.absolute
  | .absoluteX => r.absoluteX
  | .absoluteY => r.absoluteY
  | .indirect => r.indirect
  | .indirectX => r.indirectX
  | .indirectY => r.indirectY
  | .invalid => none

/-- The rows of R97. An undefined opcode has none. -/
def Instr.opcodeRow : Instr → OpcodeRow
  | .lda _ =>
    { immediate := some 0xA9, zeroPage := some 0xA5, zeroPageX := some 0xB5, absolute := some 0xAD,
      absoluteX := some 0xBD, absoluteY := some 0xB9, indirectX := some 0xA1, indirectY := some 0xB1 }
  | .ldx _ =>
    { immediate := some 0xA2, zeroPage := some 0xA6, zeroPageY := some 0xB6,
      absolute := some 0xAE, absoluteY := some 0xBE }
  | .ldy _ =>
    { immediate := some 0xA0, zeroPage := some 0xA4, zeroPageX := some 0xB4,
      absolute := some 0xAC, absoluteX := some 0xBC }
  | .sta _ =>
    { zeroPage := some 0x85, zeroPageX := some 0x95, absolute := some 0x8D, absoluteX := some 0x9D,
      absoluteY := some 0x99, indirectX := some 0x81, indirectY := some 0x91 }
  | .stx _ => { zeroPage := some 0x86, zeroPageY := some 0x96, absolute := some 0x8E }
  | .sty _ => { zeroPage := some 0x84, zeroPageX := some 0x94, absolute := some 0x8C }
  | .tax => { implicit := some 0xAA }
  | .tay => { implicit := some 0xA8 }
  | .txa => { implicit := some 0x8A }
  | .tya => { implicit := some 0x98 }
  | .tsx => { implicit := some 0xBA }
  | .txs => { implicit := some 0x9A }
  | .adc _ =>
    { immediate := some 0x69, zeroPage := some 0x65, zeroPageX := some 0x75, absolute := some 0x6D,
      absoluteX := some 0x7D, absoluteY := some 0x79, indirectX := some 0x61, indirectY := some 0x71 }
  | .sbc _ =>
    { immediate := some 0xE9, zeroPage := some 0xE5, zeroPageX := some 0xF5, absolute := some 0xED,
      absoluteX := some 0xFD, absoluteY := some 0xF9, indirectX := some 0xE1, indirectY := some 0xF1 }
  | .and _ =>
    { immediate := some 0x29, zeroPage := some 0x25, zeroPageX := some 0x35, absolute := some 0x2D,
      absoluteX := some 0x3D, absoluteY := some 0x39, indirectX := some 0x21, indirectY := some 0x31 }
  | .ora _ =>
    { immediate := some 0x09, zeroPage := some 0x05, zeroPageX := some 0x15, absolute := some 0x0D,
      absoluteX := some 0x1D, absoluteY := some 0x19, indirectX := some 0x01, indirectY := some 0x11 }
  | .eor _ =>
    { immediate := some 0x49, zeroPage := some 0x45, zeroPageX := some 0x55, absolute := some 0x4D,
      absoluteX := some 0x5D, absoluteY := some 0x59, indirectX := some 0x41, indirectY := some 0x51 }
  | .bit _ => { zeroPage := some 0x24, absolute := some 0x2C }
  | .cmp _ =>
    { immediate := some 0xC9, zeroPage := some 0xC5, zeroPageX := some 0xD5, absolute := some 0xCD,
      absoluteX := some 0xDD, absoluteY := some 0xD9, indirectX := some 0xC1, indirectY := some 0xD1 }
  | .cpx _ => { immediate := some 0xE0, zeroPage := some 0xE4, absolute := some 0xEC }
  | .cpy _ => { immediate := some 0xC0, zeroPage := some 0xC4, absolute := some 0xCC }
  | .inc _ => { zeroPage := some 0xE6, zeroPageX := some 0xF6, absolute := some 0xEE, absoluteX := some 0xFE }
  | .dec _ => { zeroPage := some 0xC6, zeroPageX := some 0xD6, absolute := some 0xCE, absoluteX := some 0xDE }
  | .inx => { implicit := some 0xE8 }
  | .iny => { implicit := some 0xC8 }
  | .dex => { implicit := some 0xCA }
  | .dey => { implicit := some 0x88 }
  | .asl _ =>
    { accumulator := some 0x0A, zeroPage := some 0x06, zeroPageX := some 0x16,
      absolute := some 0x0E, absoluteX := some 0x1E }
  | .lsr _ =>
    { accumulator := some 0x4A, zeroPage := some 0x46, zeroPageX := some 0x56,
      absolute := some 0x4E, absoluteX := some 0x5E }
  | .rol _ =>
    { accumulator := some 0x2A, zeroPage := some 0x26, zeroPageX := some 0x36,
      absolute := some 0x2E, absoluteX := some 0x3E }
  | .ror _ =>
    { accumulator := some 0x6A, zeroPage := some 0x66, zeroPageX := some 0x76,
      absolute := some 0x6E, absoluteX := some 0x7E }
  | .bpl _ => { relative := some 0x10 }
  | .bmi _ => { relative := some 0x30 }
  | .bvc _ => { relative := some 0x50 }
  | .bvs _ => { relative := some 0x70 }
  | .bcc _ => { relative := some 0x90 }
  | .bcs _ => { relative := some 0xB0 }
  | .bne _ => { relative := some 0xD0 }
  | .beq _ => { relative := some 0xF0 }
  | .jmp _ => { absolute := some 0x4C, indirect := some 0x6C }
  | .jsr _ => { absolute := some 0x20 }
  | .rts => { implicit := some 0x60 }
  | .brk => { implicit := some 0x00 }
  | .rti => { implicit := some 0x40 }
  | .pha => { implicit := some 0x48 }
  | .php => { implicit := some 0x08 }
  | .pla => { implicit := some 0x68 }
  | .plp => { implicit := some 0x28 }
  | .clc => { implicit := some 0x18 }
  | .sec => { implicit := some 0x38 }
  | .cli => { implicit := some 0x58 }
  | .sei => { implicit := some 0x78 }
  | .cld => { implicit := some 0xD8 }
  | .sed => { implicit := some 0xF8 }
  | .clv => { implicit := some 0xB8 }
  | .nop => { implicit := some 0xEA }
  | .undefined _ => { }

/-- The opcode byte of an instruction (R97, R98), none where it has no such form. -/
def Instr.opcode? (i : Instr) : Option Byte :=
  match i with
  | .undefined op => if undefinedOpcodes.contains op then some op else none
  | i => i.opcodeRow.cell i.mode

/-- `lo` then `hi` (R91, R94). -/
def wordBytes (w : Word) : List Byte := [loByte w, hiByte w]

def MemOperand.bytes : MemOperand → List Byte
  | .zeroPage zp => [zp]
  | .zeroPageX zp => [zp]
  | .zeroPageY zp => [zp]
  | .absolute addr => wordBytes addr
  | .absoluteX addr => wordBytes addr
  | .absoluteY addr => wordBytes addr
  | .indirectX zp => [zp]
  | .indirectY zp => [zp]

def ReadOperand.bytes : ReadOperand → List Byte
  | .immediate imm => [imm]
  | .mem m => m.bytes

def ShiftOperand.bytes : ShiftOperand → List Byte
  | .accumulator => []
  | .mem m => m.bytes

def JumpOperand.bytes : JumpOperand → List Byte
  | .absolute addr => wordBytes addr
  | .indirect ptr => wordBytes ptr

/-- The operand bytes of an instruction, in the order of R91. -/
def Instr.operandBytes : Instr → List Byte
  | .lda op => op.bytes
  | .ldx op => op.bytes
  | .ldy op => op.bytes
  | .sta op => op.bytes
  | .stx op => op.bytes
  | .sty op => op.bytes
  | .tax => []
  | .tay => []
  | .txa => []
  | .tya => []
  | .tsx => []
  | .txs => []
  | .adc op => op.bytes
  | .sbc op => op.bytes
  | .and op => op.bytes
  | .ora op => op.bytes
  | .eor op => op.bytes
  | .bit op => op.bytes
  | .cmp op => op.bytes
  | .cpx op => op.bytes
  | .cpy op => op.bytes
  | .inc op => op.bytes
  | .dec op => op.bytes
  | .inx => []
  | .iny => []
  | .dex => []
  | .dey => []
  | .asl op => op.bytes
  | .lsr op => op.bytes
  | .rol op => op.bytes
  | .ror op => op.bytes
  | .bpl disp => [disp]
  | .bmi disp => [disp]
  | .bvc disp => [disp]
  | .bvs disp => [disp]
  | .bcc disp => [disp]
  | .bcs disp => [disp]
  | .bne disp => [disp]
  | .beq disp => [disp]
  | .jmp op => op.bytes
  | .jsr addr => wordBytes addr
  | .rts => []
  | .brk => []
  | .rti => []
  | .pha => []
  | .php => []
  | .pla => []
  | .plp => []
  | .clc => []
  | .sec => []
  | .cli => []
  | .sei => []
  | .cld => []
  | .sed => []
  | .clv => []
  | .nop => []
  | .undefined _ => []

/-- The bytes of an instruction (R90, R91), none where it is not well-formed. -/
def encode (i : Instr) : Option (List Byte) := i.opcode?.map fun op => op :: i.operandBytes

/-! ## The host's numbering of a table row's bits -/

/-- The three bytes of an instruction numbered as the opcode table numbers its bits: the first byte is bits 7..0, the
second bits 15..8, the third bits 23..16; every bit from `nbits` up is 0. -/
def tableBytes (nbits w : Nat) : List Byte :=
  let v := w % 2 ^ nbits
  [BitVec.ofNat 8 v, BitVec.ofNat 8 (v / 2 ^ 8), BitVec.ofNat 8 (v / 2 ^ 16)]

/-- The instruction the decoder reads from the bits of a table row. -/
def decodeTableWord (nbits w : Nat) : Option Instr :=
  match decode (tableBytes nbits w) with
  | .ok (i, _) => some i
  | .error _ => none

end Sys2Proof
end

