-- ==== Sys2Proof/Machine/Flags.lean ====
section
/-! DEFINITION. The status byte as a value type with named operations (10_state.md R39 to R42), and every flag and
result computation of the ALU (42_arithmetic_logic.md, 43_shift_rotate.md). -/
namespace Sys2Proof.Machine

/-- The closed set of flag identities (R41). `breakField` is the two-bit field P[5:4]. -/
inductive Flag where
  | carry | zero | interruptDisable | decimal | breakField | overflow | negative
  deriving DecidableEq, Repr

/-- The bits a flag operation writes (R39): one bit, and both bits of the Break field (R40). -/
def flagMask : Flag → Byte
  | .carry => 0x01
  | .zero => 0x02
  | .interruptDisable => 0x04
  | .decimal => 0x08
  | .breakField => 0x30
  | .overflow => 0x40
  | .negative => 0x80

/-- The bit a flag test reads (R39): for the Break field bit 4 alone (R40).
UNVERIFIED (D2), unsafe for P[5:4] = 0b01 or 0b10 (log entry 11). -/
def flagBit : Flag → Nat
  | .carry => 0
  | .zero => 1
  | .interruptDisable => 2
  | .decimal => 3
  | .breakField => 4
  | .overflow => 6
  | .negative => 7

/-- `is_set(f)` (R41). -/
def isSet (p : Byte) (f : Flag) : Bool := p.getLsbD (flagBit f)

/-- `set(f)` (R41). -/
def setFlag (p : Byte) (f : Flag) : Byte := p ||| flagMask f

/-- `clear(f)` (R41). -/
def clearFlag (p : Byte) (f : Flag) : Byte := p &&& ~~~ flagMask f

/-- `P.f <- v`. -/
def writeFlag (p : Byte) (f : Flag) (v : Bool) : Byte := if v then setFlag p f else clearFlag p f

/-- `SetZN(v)` (R41). -/
def withZN (p v : Byte) : Byte := writeFlag (writeFlag p .zero (v == 0)) .negative (v.getLsbD 7)

/-- Result, carry out and signed overflow of an addition. -/
structure Sum where
  result : Byte
  carry : Bool
  overflow : Bool
  deriving DecidableEq, Repr

/-- AddWithCarry (R181): the exact sum, narrowed. -/
def addWithCarry (a b : Byte) (cin : Bool) : Sum :=
  let s := a.toNat + b.toNat + cin.toNat
  let r := BitVec.ofNat 8 s
  { result := r
    carry := decide (256 ≤ s)
    overflow := (a.getLsbD 7 == b.getLsbD 7) && (r.getLsbD 7 != a.getLsbD 7) }

/-- P after ADC or SBC (R180, R182): C, V, then SetZN of the result. -/
def withSum (p : Byte) (s : Sum) : Byte :=
  withZN (writeFlag (writeFlag p .carry s.carry) .overflow s.overflow) s.result

/-- P after Compare(r, m) (R189): V unchanged, which is UNVERIFIED (D31), unsafe (log entry 16). -/
def withCompare (p r m : Byte) : Byte :=
  let t := r - m
  writeFlag (writeFlag (writeFlag p .carry (decide (m.toNat ≤ r.toNat))) .zero (r == m)) .negative (t.getLsbD 7)

/-- P after BIT (R188): Z from `A & M`, N and V from bits 7 and 6 of M. -/
def withBitTest (p a m : Byte) : Byte :=
  writeFlag (writeFlag (writeFlag p .zero ((a &&& m) == 0)) .negative (m.getLsbD 7)) .overflow (m.getLsbD 6)

/-- Result and bit shifted out of a shift or rotate by one (R220). -/
structure Shifted where
  result : Byte
  carry : Bool
  deriving DecidableEq, Repr

/-- ASL (R221). -/
def shiftLeft (v : Byte) (_cin : Bool) : Shifted := { result := v <<< 1, carry := v.getLsbD 7 }

/-- LSR (R222). -/
def shiftRight (v : Byte) (_cin : Bool) : Shifted := { result := v >>> 1, carry := v.getLsbD 0 }

/-- ROL (R223): the previous carry enters bit 0. -/
def rotateLeft (v : Byte) (cin : Bool) : Shifted :=
  { result := (v <<< 1) ||| carryByte cin, carry := v.getLsbD 7 }

/-- ROR (R224): the previous carry enters bit 7. -/
def rotateRight (v : Byte) (cin : Bool) : Shifted :=
  { result := (v >>> 1) ||| (carryByte cin <<< 7), carry := v.getLsbD 0 }

/-- P after a shift or rotate (R220): C, then SetZN of the result. -/
def withShift (p : Byte) (r : Shifted) : Byte := withZN (writeFlag p .carry r.carry) r.result

end Sys2Proof.Machine
end

