-- ==== Sys2Proof/Machine/State.lean ====
section
/-! DEFINITION. The complete state of the core (10_state.md R52), the reasons a step can stop, and the state at
creation (70_reset_and_hazards.md R360). -/
namespace Sys2Proof.Machine

/-- The run state of the execution loop (R49, R300). -/
inductive RunState where
  | running
  | halted
  deriving DecidableEq, Repr

/-- A diagnostic event: the address of the opcode byte, and the opcode byte (R50). -/
structure Diagnostic where
  addr : Word
  opcode : Byte
  deriving DecidableEq, Repr

/-- The flat byte store behind the bus (R60), as the cells whose byte is not `unlistedByte`, addresses rising. -/
abbrev Memory := List Host.Cell

/-- What an address that is not listed reads as: memory is zero-initialised at creation (R60, R61, R360).
The list that leaves such cells out is a DESIGN CHOICE, safe (log entry 8). -/
def unlistedByte : Byte := 0

/-- The listed addresses rise from `lo`, lie in the address space, and no listed byte is `unlistedByte`. -/
def Memory.wfFrom : Nat → Memory → Bool
  | _, [] => true
  | lo, (a, v) :: m => decide (lo ≤ a) && decide (a < 65536) && v != unlistedByte && Memory.wfFrom (a + 1) m

/-- The canonical form of memory: two memories in it that read alike are equal lists. -/
def Memory.wf (m : Memory) : Bool := Memory.wfFrom 0 m

/-- The state of R52: the six registers of R30, the run state, the diagnostics and the memory. -/
structure State where
  pc : Word
  sp : Byte
  a : Byte
  x : Byte
  y : Byte
  /-- The status register P (R39): C bit 0, Z 1, I 2, D 3, Break field 5:4, V 6, N 7. -/
  p : Byte
  runState : RunState
  /-- Diagnostics, oldest first; append-only (R50). -/
  diag : List Diagnostic
  mem : Memory
  deriving DecidableEq, Repr

/-- Why the machine has no next state. -/
inductive Fault where
  /-- Raised by `step` alone, on a core whose run state is Halted: R307 gives it no transition. Safe: no claim about a
  next state of a halted core can be proved. -/
  | halted
  deriving DecidableEq, Repr

/-- Why an instruction is given no meaning. -/
inductive Refusal where
  /-- An arm of `exec` that has no meaning yet; no arm raises it now. Safe. -/
  | notModelled (mnemonic : String)
  /-- ADC or SBC with P.D = 1 under DECIMAL_POLICY = refuse (R180, R182). Not raised under the decided value. Safe. -/
  | decimalArithmetic
  /-- An undefined opcode under UNDEFINED_POLICY = refuse (R283). Not raised under the decided value. Safe. -/
  | undefinedOpcode (addr : Word) (op : Byte)
  deriving DecidableEq, Repr

/-- The creation state (R360): every register zero, memory zero, Halted, no diagnostic. Halted is
UNVERIFIED (D15), unsafe for claims about a core never started (log entry 6). -/
def State.reset : State where
  pc := 0
  sp := 0
  a := 0
  x := 0
  y := 0
  p := 0
  runState := .halted
  diag := []
  mem := []

end Sys2Proof.Machine
end

