-- ==== Sys2Proof/Machine/Ops.lean ====
section
/-! DEFINITION. The named operations over memory and registers: the bus primitives of 00_scope.md R16, the stack of
20_memory.md R68 to R71, the advance of PC (10_state.md R37), the diagnostic, the fetch, the halt check and RTI's
return. The core has no exception entry (60_exceptions.md R330, R335): the one event that ends normal sequencing is
the halt check. -/
namespace Sys2Proof.Machine

/-! ## Memory (R60, R61) -/

/-- `read_byte`. -/
def Memory.read : Memory → Nat → Byte
  | [], _ => unlistedByte
  | (a, v) :: m, k => if a = k then v else Memory.read m k

/-- Forget what is listed at an address. -/
def Memory.erase (m : Memory) (k : Nat) : Memory := m.filter fun c => c.1 != k

/-- List a byte at its place in the order of addresses. -/
def Memory.insert : Memory → Nat → Byte → Memory
  | [], k, v => [(k, v)]
  | (a, u) :: m, k, v =>
    if k < a then (k, v) :: (a, u) :: m
    else if k = a then (k, v) :: m
    else (a, u) :: Memory.insert m k v

/-- `write_byte`: replaces one byte, and lists nothing that reads as an unlisted address does. -/
def Memory.write (m : Memory) (k : Nat) (v : Byte) : Memory :=
  if v = unlistedByte then Memory.erase m k else Memory.insert m k v

/-- `MemRead(addr, 1)` (R16): no effect on the state. That no access is recorded is a DESIGN
CHOICE, safe over flat memory (log entry 18). -/
def State.memRead (s : State) (addr : Word) : Byte := s.mem.read addr.toNat

/-- `MemWrite(addr, 1, v)` (R16). -/
def State.memWrite (s : State) (addr : Word) (v : Byte) : State :=
  { s with mem := s.mem.write addr.toNat v }

/-- Write a byte string at an address, wrapping modulo 65536: the writes of `load` (R79). -/
def State.loadBytes (s : State) (addr : Word) : List Byte → State
  | [] => s
  | b :: bs => (s.memWrite addr b).loadBytes (addr + 1) bs

/-! ## Registers (R15) -/

def State.setA (s : State) (v : Byte) : State := { s with a := v }
def State.setX (s : State) (v : Byte) : State := { s with x := v }
def State.setY (s : State) (v : Byte) : State := { s with y := v }
def State.setSP (s : State) (v : Byte) : State := { s with sp := v }
def State.setP (s : State) (v : Byte) : State := { s with p := v }
def State.setPC (s : State) (v : Word) : State := { s with pc := v }

/-- `SetZN(v)` on the state (R41). -/
def State.setZN (s : State) (v : Byte) : State := s.setP (withZN s.p v)

/-- PC once the opcode and the operand bytes of the mode have been fetched (R37, R135): every `FetchByte` adds 1
modulo 65536 (R16, R38). -/
def State.fetched (s : State) (m : Mode) : State := s.setPC (s.pc + 1 + BitVec.ofNat 16 m.width)

/-! ## The stack (R68 to R71) -/

/-- The address a push writes, and the address the byte above SP stands at after a pull's increment (R68). -/
def stackAddr (sp : Byte) : Word := 0x0100 + zext16 sp

/-- `Push(v)` (R70). -/
def State.push (s : State) (v : Byte) : State := (s.memWrite (stackAddr s.sp) v).setSP (s.sp - 1)

/-- The byte `Pull()` returns (R71). -/
def State.pullByte (s : State) : Byte := s.memRead (stackAddr (s.sp + 1))

/-- The state after `Pull()` (R71). -/
def State.pulled (s : State) : State := s.setSP (s.sp + 1)

/-! ## Diagnostics, fetch, halt check, return -/

/-- `emit Diagnostic(addr, op)` (R18, R50). UNVERIFIED, unsafe for the content alone (log entry 19). -/
def State.emit (s : State) (addr : Word) (op : Byte) : State := { s with diag := s.diag ++ [⟨addr, op⟩] }

/-- The instruction at PC: the opcode byte, then the operand bytes its form asks for, at increasing addresses
(R74, R301, R302). -/
def State.fetchInstr (s : State) : Instr :=
  match dispatch (s.memRead s.pc) with
  | .whole i => i
  | .byte f => f (s.memRead (s.pc + 1))
  | .word f => f (join (s.memRead (s.pc + 2)) (s.memRead (s.pc + 1)))

/-- The `n` bytes from an address on, wrapping modulo 65536 (R38). -/
def State.bytesFrom (s : State) (addr : Word) : Nat → List Byte
  | 0 => []
  | n + 1 => s.memRead addr :: s.bytesFrom (addr + 1) n

/-- The halt check that follows every instruction (R306): Break is set exactly when P[4] is 1.
UNVERIFIED, unsafe for P[5:4] = 0b01 or 0b10 (log entry 11). -/
def State.haltCheck (s : State) : State := if isSet s.p .breakField then { s with runState := .halted } else s

/-- The end of a step: the halt check on the state the execute phase left (R301). -/
def finishStep : Host.Outcome State Fault Refusal → Host.Outcome State Fault Refusal
  | .next s => .next s.haltCheck
  | .fault r => .fault r
  | .refused r => .refused r

/-- One step (R301) by a given execute phase: on a running core fetch, decode and execute, then the halt check; a
halted core has no step (R307): that this is a named fault is a DESIGN CHOICE, safe (log entry 5). -/
def stepBy (ex : Instr → State → Host.Outcome State Fault Refusal) (s : State) : Host.Outcome State Fault Refusal :=
  match s.runState with
  | .running => finishStep (ex s.fetchInstr s)
  | .halted => .fault .halted

/-- What RTI restores (R253, R336): P whole, then PC, low byte first, nothing added.
UNVERIFIED, unsafe for frames built by hand (log entries 12, 13). -/
def State.returnFromInterrupt (s : State) : State :=
  let s1 := s.pulled.setP s.pullByte
  let s2 := s1.pulled
  s2.pulled.setPC (join s2.pullByte s1.pullByte)

end Sys2Proof.Machine
end

