-- ==== Sys2Proof/Machine/Operands.lean ====
section
/-! DEFINITION. The addressing-mode resolver (40_addressing_modes.md) on operands whose bytes the decoder has read,
and the decided values of the open parameters it and the ALU take (00_scope.md R10). -/
namespace Sys2Proof.Machine

/-- The decided values of R10: JMP_IND_PAGE_WRAP true (D8), DECIMAL_POLICY ignore (D11), UNDEFINED_POLICY
nop_diagnostic (D10). UNVERIFIED, unsafe (log entries 1, 2, 3). -/
def decided : Config where
  jmpIndPageWrap := true
  decimalPolicy := .ignore
  undefinedPolicy := .nopDiagnostic

/-- The two bytes of a zero-page pointer, the high one at `(p + 1) mod 256` (R131, R132, D9).
UNVERIFIED, unsafe for a pointer at 0xFF (log entry 15). -/
def zeroPagePointer (p : Byte) (s : State) : Word := join (s.memRead (zext16 (p + 1))) (s.memRead (zext16 p))

/-- The effective address of a memory operand (R124 to R129, R131, R132). The reads are pure (R136). -/
def ea (op : MemOperand) (s : State) : Word :=
  match op with
  | .zeroPage zp => zext16 zp
  | .zeroPageX zp => zext16 (zp + s.x)
  | .zeroPageY zp => zext16 (zp + s.y)
  | .absolute addr => addr
  | .absoluteX addr => addr + zext16 s.x
  | .absoluteY addr => addr + zext16 s.y
  | .indirectX zp => zeroPagePointer (zp + s.x) s
  | .indirectY zp => zeroPagePointer zp s + zext16 s.y

/-- The operand value M (R138): the byte in the instruction (R123), or the byte at the effective address. That the
instruction carries its immediate byte is DEDUCED, safe (log entry 7). -/
def readOperand (op : ReadOperand) (s : State) : Byte :=
  match op with
  | .immediate imm => imm
  | .mem m => s.memRead (ea m s)

/-- `Load(op)` of R220. -/
def loadTarget (op : ShiftOperand) (s : State) : Byte :=
  match op with
  | .accumulator => s.a
  | .mem m => s.memRead (ea m s)

/-- `Store(op, r)` of R220, the effective address resolved in the state `s0` the instruction began with. -/
def storeTarget (op : ShiftOperand) (s0 : State) (r : Byte) (s : State) : State :=
  match op with
  | .accumulator => s.setA r
  | .mem m => s.memWrite (ea m s0) r

/-- Where the high byte of an Indirect pointer is read (R130). -/
def pointerNext (cfg : Config) (ptr : Word) : Word :=
  if cfg.jmpIndPageWrap then join (hiByte ptr) (loByte ptr + 1) else ptr + 1

/-- The target of JMP (R127, R130). -/
def jumpTarget (cfg : Config) (op : JumpOperand) (s : State) : Word :=
  match op with
  | .absolute addr => addr
  | .indirect ptr => join (s.memRead (pointerNext cfg ptr)) (s.memRead ptr)

/-- The target of a branch (R133): PC after the operand byte, plus the signed displacement. UNVERIFIED,
unsafe (log entry 15). -/
def branchTarget (disp : Byte) (s : State) : Word := (s.fetched .relative).pc + sext16 disp

end Sys2Proof.Machine
end

