-- ==== Sys2Proof/Machine/Arithmetic.lean ====
section
/-! DEFINITION. Arithmetic, logic, bit test, compare, increment and decrement (42_arithmetic_logic.md). -/
namespace Sys2Proof.Machine

/-- The common part of ADC and SBC (R180, R182): `b` is the second addend. -/
def addToA (cfg : Config) (mode : Mode) (b : Byte) (s : State) : Host.Outcome State Fault Refusal :=
  if isSet s.p .decimal && decide (cfg.decimalPolicy = .refuse) then .refused .decimalArithmetic
  else
    let r := addWithCarry s.a b (isSet s.p .carry)
    .next (((s.fetched mode).setA r.result).setP (withSum s.p r))

/-- ADC under a configuration (R180). -/
def adcIn (cfg : Config) (op : ReadOperand) (s : State) : Host.Outcome State Fault Refusal :=
  addToA cfg op.mode (readOperand op s) s

/-- SBC under a configuration (R182): the one's complement of M is added. -/
def sbcIn (cfg : Config) (op : ReadOperand) (s : State) : Host.Outcome State Fault Refusal :=
  addToA cfg op.mode (~~~ readOperand op s) s

/-- ADC (R180). -/
def execAdc (op : ReadOperand) (s : State) : Host.Outcome State Fault Refusal := adcIn decided op s

/-- SBC (R182). -/
def execSbc (op : ReadOperand) (s : State) : Host.Outcome State Fault Refusal := sbcIn decided op s

/-- AND (R184). -/
def execAnd (op : ReadOperand) (s : State) : Host.Outcome State Fault Refusal :=
  let r := s.a &&& readOperand op s
  .next (((s.fetched op.mode).setA r).setZN r)

/-- ORA (R185). -/
def execOra (op : ReadOperand) (s : State) : Host.Outcome State Fault Refusal :=
  let r := s.a ||| readOperand op s
  .next (((s.fetched op.mode).setA r).setZN r)

/-- EOR (R186). -/
def execEor (op : ReadOperand) (s : State) : Host.Outcome State Fault Refusal :=
  let r := s.a ^^^ readOperand op s
  .next (((s.fetched op.mode).setA r).setZN r)

/-- BIT (R188). UNVERIFIED (D22), unsafe (log entry 16). -/
def execBit (op : MemOperand) (s : State) : Host.Outcome State Fault Refusal :=
  .next ((s.fetched op.mode).setP (withBitTest s.p s.a (s.memRead (ea op s))))

/-- CMP (R190). -/
def execCmp (op : ReadOperand) (s : State) : Host.Outcome State Fault Refusal :=
  .next ((s.fetched op.mode).setP (withCompare s.p s.a (readOperand op s)))

/-- CPX (R191). -/
def execCpx (op : ReadOperand) (s : State) : Host.Outcome State Fault Refusal :=
  .next ((s.fetched op.mode).setP (withCompare s.p s.x (readOperand op s)))

/-- CPY (R192). -/
def execCpy (op : ReadOperand) (s : State) : Host.Outcome State Fault Refusal :=
  .next ((s.fetched op.mode).setP (withCompare s.p s.y (readOperand op s)))

/-- Write `r` to the memory operand and SetZN of it: the end of INC and DEC (R193, R194). -/
def storeResult (op : MemOperand) (r : Byte) (s : State) : State :=
  ((s.fetched op.mode).memWrite (ea op s) r).setZN r

/-- INC (R193). -/
def execInc (op : MemOperand) (s : State) : Host.Outcome State Fault Refusal :=
  .next (storeResult op (s.memRead (ea op s) + 1) s)

/-- DEC (R194). -/
def execDec (op : MemOperand) (s : State) : Host.Outcome State Fault Refusal :=
  .next (storeResult op (s.memRead (ea op s) - 1) s)

/-- INX (R195). -/
def execInx (s : State) : Host.Outcome State Fault Refusal :=
  .next (((s.fetched .implicit).setX (s.x + 1)).setZN (s.x + 1))

/-- INY (R196). -/
def execIny (s : State) : Host.Outcome State Fault Refusal :=
  .next (((s.fetched .implicit).setY (s.y + 1)).setZN (s.y + 1))

/-- DEX (R197). -/
def execDex (s : State) : Host.Outcome State Fault Refusal :=
  .next (((s.fetched .implicit).setX (s.x - 1)).setZN (s.x - 1))

/-- DEY (R198). -/
def execDey (s : State) : Host.Outcome State Fault Refusal :=
  .next (((s.fetched .implicit).setY (s.y - 1)).setZN (s.y - 1))

end Sys2Proof.Machine
end

