-- ==== Sys2Proof/Machine/ControlTransfer.lean ====
section
/-! DEFINITION. Branches, jumps, calls, returns, BRK and RTI (44_control_transfer.md). -/
namespace Sys2Proof.Machine

/-- The common rule of the eight branches (R240). The flag of each is UNVERIFIED (D23), unsafe (log entry 16). -/
def branchIf (taken : Bool) (disp : Byte) (s : State) : State :=
  if taken then (s.fetched .relative).setPC (branchTarget disp s) else s.fetched .relative

/-- BPL (R241). -/
def execBpl (disp : Byte) (s : State) : Host.Outcome State Fault Refusal :=
  .next (branchIf (!isSet s.p .negative) disp s)

/-- BMI (R242). -/
def execBmi (disp : Byte) (s : State) : Host.Outcome State Fault Refusal :=
  .next (branchIf (isSet s.p .negative) disp s)

/-- BVC (R243). -/
def execBvc (disp : Byte) (s : State) : Host.Outcome State Fault Refusal :=
  .next (branchIf (!isSet s.p .overflow) disp s)

/-- BVS (R244). -/
def execBvs (disp : Byte) (s : State) : Host.Outcome State Fault Refusal :=
  .next (branchIf (isSet s.p .overflow) disp s)

/-- BCC (R245). -/
def execBcc (disp : Byte) (s : State) : Host.Outcome State Fault Refusal :=
  .next (branchIf (!isSet s.p .carry) disp s)

/-- BCS (R246). -/
def execBcs (disp : Byte) (s : State) : Host.Outcome State Fault Refusal :=
  .next (branchIf (isSet s.p .carry) disp s)

/-- BNE (R247). -/
def execBne (disp : Byte) (s : State) : Host.Outcome State Fault Refusal :=
  .next (branchIf (!isSet s.p .zero) disp s)

/-- BEQ (R248). -/
def execBeq (disp : Byte) (s : State) : Host.Outcome State Fault Refusal :=
  .next (branchIf (isSet s.p .zero) disp s)

/-- JMP under a configuration (R249). -/
def jmpIn (cfg : Config) (op : JumpOperand) (s : State) : Host.Outcome State Fault Refusal :=
  .next ((s.fetched op.mode).setPC (jumpTarget cfg op s))

/-- JMP (R249). -/
def execJmp (op : JumpOperand) (s : State) : Host.Outcome State Fault Refusal := jmpIn decided op s

/-- JSR (R250): pushes the address of its own last byte, high byte first. UNVERIFIED, unsafe for return addresses
handled in the stack (log entry 13). -/
def execJsr (addr : Word) (s : State) : Host.Outcome State Fault Refusal :=
  let s1 := s.fetched .absolute
  let ret := s1.pc - 1
  .next (((s1.push (hiByte ret)).push (loByte ret)).setPC addr)

/-- RTS (R251): pulls low byte then high byte, and adds 1. UNVERIFIED, unsafe as JSR (log entry 13). -/
def execRts (s : State) : Host.Outcome State Fault Refusal :=
  let s1 := s.fetched .implicit
  let s2 := s1.pulled
  .next (s2.pulled.setPC (join s2.pullByte s1.pullByte + 1))

/-- BRK (R252): sets the Break field and nothing else; the halt check of the step then halts (R306).
UNVERIFIED, unsafe for the PC and stack of the halted state (log entry 14). -/
def execBrk (s : State) : Host.Outcome State Fault Refusal :=
  .next ((s.fetched .implicit).setP (setFlag s.p .breakField))

/-- RTI (R253). -/
def execRti (s : State) : Host.Outcome State Fault Refusal := .next (s.fetched .implicit).returnFromInterrupt

end Sys2Proof.Machine
end

