-- ==== Sys2Proof/Machine/LoadStore.lean ====
section
/-! DEFINITION. Loads, stores and register transfers (41_load_store_transfer.md). Each meaning takes the state with PC
at the opcode byte and answers it after the execute phase; the halt check is `step`'s. -/
namespace Sys2Proof.Machine

/-- LDA (R151). -/
def execLda (op : ReadOperand) (s : State) : Host.Outcome State Fault Refusal :=
  .next (((s.fetched op.mode).setA (readOperand op s)).setZN (readOperand op s))

/-- LDX (R152). -/
def execLdx (op : ReadOperand) (s : State) : Host.Outcome State Fault Refusal :=
  .next (((s.fetched op.mode).setX (readOperand op s)).setZN (readOperand op s))

/-- LDY (R153). -/
def execLdy (op : ReadOperand) (s : State) : Host.Outcome State Fault Refusal :=
  .next (((s.fetched op.mode).setY (readOperand op s)).setZN (readOperand op s))

/-- STA (R154). STA, STX, STY are UNVERIFIED (D22), unsafe (log entry 16). -/
def execSta (op : MemOperand) (s : State) : Host.Outcome State Fault Refusal :=
  .next ((s.fetched op.mode).memWrite (ea op s) s.a)

/-- STX (R155). -/
def execStx (op : MemOperand) (s : State) : Host.Outcome State Fault Refusal :=
  .next ((s.fetched op.mode).memWrite (ea op s) s.x)

/-- STY (R156). -/
def execSty (op : MemOperand) (s : State) : Host.Outcome State Fault Refusal :=
  .next ((s.fetched op.mode).memWrite (ea op s) s.y)

/-- TAX (R157). -/
def execTax (s : State) : Host.Outcome State Fault Refusal :=
  .next (((s.fetched .implicit).setX s.a).setZN s.a)

/-- TAY (R158). -/
def execTay (s : State) : Host.Outcome State Fault Refusal :=
  .next (((s.fetched .implicit).setY s.a).setZN s.a)

/-- TXA (R159). -/
def execTxa (s : State) : Host.Outcome State Fault Refusal :=
  .next (((s.fetched .implicit).setA s.x).setZN s.x)

/-- TYA (R160). -/
def execTya (s : State) : Host.Outcome State Fault Refusal :=
  .next (((s.fetched .implicit).setA s.y).setZN s.y)

/-- TSX (R161). -/
def execTsx (s : State) : Host.Outcome State Fault Refusal :=
  .next (((s.fetched .implicit).setX s.sp).setZN s.sp)

/-- TXS (R162): no flag. -/
def execTxs (s : State) : Host.Outcome State Fault Refusal :=
  .next ((s.fetched .implicit).setSP s.x)

end Sys2Proof.Machine
end

