-- ==== Sys2Proof/Machine/Shift.lean ====
section
/-! DEFINITION. Shifts and rotates (43_shift_rotate.md). -/
namespace Sys2Proof.Machine

/-- The common rule of R220: load the target, shift it by one, store it, C and SetZN. -/
def shiftWith (f : Byte → Bool → Shifted) (op : ShiftOperand) (s : State) : State :=
  let r := f (loadTarget op s) (isSet s.p .carry)
  (storeTarget op s r.result (s.fetched op.mode)).setP (withShift s.p r)

/-- ASL (R221). -/
def execAsl (op : ShiftOperand) (s : State) : Host.Outcome State Fault Refusal := .next (shiftWith shiftLeft op s)

/-- LSR (R222). -/
def execLsr (op : ShiftOperand) (s : State) : Host.Outcome State Fault Refusal := .next (shiftWith shiftRight op s)

/-- ROL (R223). -/
def execRol (op : ShiftOperand) (s : State) : Host.Outcome State Fault Refusal := .next (shiftWith rotateLeft op s)

/-- ROR (R224). -/
def execRor (op : ShiftOperand) (s : State) : Host.Outcome State Fault Refusal := .next (shiftWith rotateRight op s)

end Sys2Proof.Machine
end

