-- ==== Sys2Proof/Machine/StackFlag.lean ====
section
/-! DEFINITION. Stack operations, flag instructions, NOP and undefined opcodes (45_stack_flag_misc.md). -/
namespace Sys2Proof.Machine

/-- PHA (R271). -/
def execPha (s : State) : Host.Outcome State Fault Refusal := .next ((s.fetched .implicit).push s.a)

/-- PHP (R272): the status byte as stored. UNVERIFIED, unsafe for bits 4 and 5 (log entry 12). -/
def execPhp (s : State) : Host.Outcome State Fault Refusal := .next ((s.fetched .implicit).push s.p)

/-- PLA (R273). -/
def execPla (s : State) : Host.Outcome State Fault Refusal :=
  .next (((s.fetched .implicit).pulled.setA s.pullByte).setZN s.pullByte)

/-- PLP (R274): all eight bits, verbatim. UNVERIFIED, unsafe for bits 4 and 5 (log entry 12). -/
def execPlp (s : State) : Host.Outcome State Fault Refusal :=
  .next ((s.fetched .implicit).pulled.setP s.pullByte)

/-- CLC (R275). -/
def execClc (s : State) : Host.Outcome State Fault Refusal :=
  .next ((s.fetched .implicit).setP (clearFlag s.p .carry))

/-- SEC (R276). -/
def execSec (s : State) : Host.Outcome State Fault Refusal :=
  .next ((s.fetched .implicit).setP (setFlag s.p .carry))

/-- CLI (R277). -/
def execCli (s : State) : Host.Outcome State Fault Refusal :=
  .next ((s.fetched .implicit).setP (clearFlag s.p .interruptDisable))

/-- SEI (R278). -/
def execSei (s : State) : Host.Outcome State Fault Refusal :=
  .next ((s.fetched .implicit).setP (setFlag s.p .interruptDisable))

/-- CLD (R279). -/
def execCld (s : State) : Host.Outcome State Fault Refusal :=
  .next ((s.fetched .implicit).setP (clearFlag s.p .decimal))

/-- SED (R280). -/
def execSed (s : State) : Host.Outcome State Fault Refusal :=
  .next ((s.fetched .implicit).setP (setFlag s.p .decimal))

/-- CLV (R281). -/
def execClv (s : State) : Host.Outcome State Fault Refusal :=
  .next ((s.fetched .implicit).setP (clearFlag s.p .overflow))

/-- NOP (R282). -/
def execNop (s : State) : Host.Outcome State Fault Refusal := .next (s.fetched .implicit)

/-- An undefined opcode under a configuration (R283): a 1-byte no-op with a diagnostic, or a refusal. -/
def undefinedIn (cfg : Config) (op : Byte) (s : State) : Host.Outcome State Fault Refusal :=
  match cfg.undefinedPolicy with
  | .nopDiagnostic => .next ((s.fetched .invalid).emit s.pc op)
  | .refuse => .refused (.undefinedOpcode s.pc op)

/-- An undefined opcode (R283). -/
def execUndefined (op : Byte) (s : State) : Host.Outcome State Fault Refusal := undefinedIn decided op s

end Sys2Proof.Machine
end

