-- ==== Sys2Proof/Machine/Dispatch.lean ====
section
/-! DEFINITION. The meaning of every instruction (30_encoding.md R97, R98), one arm a constructor. -/
namespace Sys2Proof.Machine

def exec (i : Instr) (s : State) : Host.Outcome State Fault Refusal :=
  match i with
  -- 41_load_store_transfer.md
  | .lda op => Sys2Proof.Machine.execLda op s
  | .ldx op => Sys2Proof.Machine.execLdx op s
  | .ldy op => Sys2Proof.Machine.execLdy op s
  | .sta op => Sys2Proof.Machine.execSta op s
  | .stx op => Sys2Proof.Machine.execStx op s
  | .sty op => Sys2Proof.Machine.execSty op s
  | .tax => Sys2Proof.Machine.execTax s
  | .tay => Sys2Proof.Machine.execTay s
  | .txa => Sys2Proof.Machine.execTxa s
  | .tya => Sys2Proof.Machine.execTya s
  | .tsx => Sys2Proof.Machine.execTsx s
  | .txs => Sys2Proof.Machine.execTxs s
  -- 42_arithmetic_logic.md
  | .adc op => Sys2Proof.Machine.execAdc op s
  | .sbc op => Sys2Proof.Machine.execSbc op s
  | .and op => Sys2Proof.Machine.execAnd op s
  | .ora op => Sys2Proof.Machine.execOra op s
  | .eor op => Sys2Proof.Machine.execEor op s
  | .bit op => Sys2Proof.Machine.execBit op s
  | .cmp op => Sys2Proof.Machine.execCmp op s
  | .cpx op => Sys2Proof.Machine.execCpx op s
  | .cpy op => Sys2Proof.Machine.execCpy op s
  | .inc op => Sys2Proof.Machine.execInc op s
  | .dec op => Sys2Proof.Machine.execDec op s
  | .inx => Sys2Proof.Machine.execInx s
  | .iny => Sys2Proof.Machine.execIny s
  | .dex => Sys2Proof.Machine.execDex s
  | .dey => Sys2Proof.Machine.execDey s
  -- 43_shift_rotate.md
  | .asl op => Sys2Proof.Machine.execAsl op s
  | .lsr op => Sys2Proof.Machine.execLsr op s
  | .rol op => Sys2Proof.Machine.execRol op s
  | .ror op => Sys2Proof.Machine.execRor op s
  -- 44_control_transfer.md
  | .bpl disp => Sys2Proof.Machine.execBpl disp s
  | .bmi disp => Sys2Proof.Machine.execBmi disp s
  | .bvc disp => Sys2Proof.Machine.execBvc disp s
  | .bvs disp => Sys2Proof.Machine.execBvs disp s
  | .bcc disp => Sys2Proof.Machine.execBcc disp s
  | .bcs disp => Sys2Proof.Machine.execBcs disp s
  | .bne disp => Sys2Proof.Machine.execBne disp s
  | .beq disp => Sys2Proof.Machine.execBeq disp s
  | .jmp op => Sys2Proof.Machine.execJmp op s
  | .jsr addr => Sys2Proof.Machine.execJsr addr s
  | .rts => Sys2Proof.Machine.execRts s
  | .brk => Sys2Proof.Machine.execBrk s
  | .rti => Sys2Proof.Machine.execRti s
  -- 45_stack_flag_misc.md
  | .pha => Sys2Proof.Machine.execPha s
  | .php => Sys2Proof.Machine.execPhp s
  | .pla => Sys2Proof.Machine.execPla s
  | .plp => Sys2Proof.Machine.execPlp s
  | .clc => Sys2Proof.Machine.execClc s
  | .sec => Sys2Proof.Machine.execSec s
  | .cli => Sys2Proof.Machine.execCli s
  | .sei => Sys2Proof.Machine.execSei s
  | .cld => Sys2Proof.Machine.execCld s
  | .sed => Sys2Proof.Machine.execSed s
  | .clv => Sys2Proof.Machine.execClv s
  | .nop => Sys2Proof.Machine.execNop s
  | .undefined op => Sys2Proof.Machine.execUndefined op s

end Sys2Proof.Machine
end

