-- ==== Sys2Proof/Machine/Step.lean ====
section
/-! DEFINITION. One step of the execution loop (46_execution_loop.md R301), and the host's placing of one table row's
instruction where the next step fetches. -/
namespace Sys2Proof.Machine

/-- One step (R301): `exec` of the instruction fetched, then the halt check; the fault `halted` on a halted core
(log entry 5). -/
def step (s : State) : Host.Outcome State Fault Refusal := stepBy exec s

/-- The state whose next step runs the instruction with these bits: its bytes stored at PC, as `load` stores them,
and the core Running, as `run` sets it (R303, R364); log entry 6. -/
def State.withFetchWord (s : State) (nbits w : Nat) : State :=
  { s.loadBytes s.pc (tableBytes nbits w) with runState := .running }

end Sys2Proof.Machine
end

