-- ==== Sys2Proof/Machine/HostPort.lean ====
section
/-! DEFINITION. What the host can do between steps (00_scope.md R11): read and write memory, load an image, start a
run, and drive the core by a bounded number of steps. -/
namespace Sys2Proof.Machine

/-- The `halted` output (R11). -/
def State.isHalted (s : State) : Bool := s.runState == .halted

/-- The host's `read_byte` between steps (R11, R80). -/
def State.hostRead (s : State) (addr : Word) : Byte := s.memRead addr

/-- The host's `write_byte` between steps (R80, R364). -/
def State.hostWrite (s : State) (addr : Word) (v : Byte) : State := s.memWrite addr v

/-- The host's `load` (R79). UNVERIFIED (D16), unsafe for images that cross 0xFFFF (log entry 17). -/
def State.load (s : State) (addr : Word) (bytes : List Byte) : State := s.loadBytes addr bytes

/-- What `run(start_address)` does before its loop (R303): PC and the run state, nothing else. UNVERIFIED
(D15), unsafe for restarted cores (log entry 17). -/
def State.start (s : State) (addr : Word) : State := { s.setPC addr with runState := .running }

/-- The host's call of a step (R308): on a halted core it does nothing (R307). -/
def hostStepBy (st : State → Host.Outcome State Fault Refusal) (s : State) : Host.Outcome State Fault Refusal :=
  match s.runState with
  | .running => st s
  | .halted => .next s

/-- The host's `step` (R308). -/
def hostStep (s : State) : Host.Outcome State Fault Refusal := hostStepBy step s

/-- The loop of `run` (R303) over a given step, under the host's step limit (R308, D27): at most `n` steps, ending
where the core is Halted. The bound is DEDUCED, safe (log entry 22). -/
def runBy (st : State → Host.Outcome State Fault Refusal) : Nat → State → Host.Outcome State Fault Refusal
  | 0, s => .next s
  | n + 1, s =>
    match s.runState with
    | .halted => .next s
    | .running =>
      match st s with
      | .next t => runBy st n t
      | .fault r => .fault r
      | .refused r => .refused r

/-- At most `n` steps of the loop of `run` (R303). -/
def runFor (n : Nat) (s : State) : Host.Outcome State Fault Refusal := runBy step n s

end Sys2Proof.Machine
end

