-- ==== Sys2Proof/Machine/Configured.lean ====
section
/-! DEFINITION. The machine under every value of the open parameters (00_scope.md R10). `exec`, `step`, `hostStep`,
`runFor` and `core` are these at `decided`, the values the spec decides (Laws/Configured.lean). -/
namespace Sys2Proof.Machine

/-- The meaning of an instruction under a configuration. Four instructions read a parameter (R130, R180, R182, R283);
the others have the one meaning `exec` gives them, constructor by constructor. -/
def execIn (cfg : Config) (i : Instr) (s : State) : Host.Outcome State Fault Refusal :=
  match i with
  | .jmp op => jmpIn cfg op s
  | .adc op => adcIn cfg op s
  | .sbc op => sbcIn cfg op s
  | .undefined op => undefinedIn cfg op s
  | i => exec i s

/-- One step (R301) under a configuration. -/
def stepIn (cfg : Config) (s : State) : Host.Outcome State Fault Refusal := stepBy (execIn cfg) s

/-- The host's `step` (R308) under a configuration. -/
def hostStepIn (cfg : Config) (s : State) : Host.Outcome State Fault Refusal := hostStepBy (stepIn cfg) s

/-- At most `n` steps of `run`'s loop (R303, R308) under a configuration. -/
def runForIn (cfg : Config) (n : Nat) (s : State) : Host.Outcome State Fault Refusal := runBy (stepIn cfg) n s

/-- The core under a configuration, as the host sees one. -/
def coreIn (cfg : Config) : Host.Core :=
  { State := State, Fault := Fault, Refusal := Refusal, step := stepIn cfg, reset := State.reset }

end Sys2Proof.Machine
end

