-- ==== Sys2Proof/Safety.lean ====
section
/-! DEFINITION. What counts as a safe step, the invariant of the state, and the end of a run, in the terms the
statements use. -/
namespace Sys2Proof.Machine

/-- The core makes a step: no fault and no refusal. -/
def StepsOn (s : State) : Prop := ∃ t, step s = .next t

/-- The invariant every operation keeps: memory is in its canonical form. -/
def State.Inv (s : State) : Prop := s.mem.wf = true

/-- `t` is an end state of the run the host starts at `addr` on the core `s` (R310). -/
def EndsIn (s : State) (addr : Word) (t : State) : Prop :=
  ∃ n, runFor n (s.start addr) = .next t ∧ t.runState = .halted

end Sys2Proof.Machine
end

