-- ==== Sys2Proof/Certificates/Slice0/Obligations.lean ====
section
/-! DEFINITION. The statements for the provers, from the numbered rules of the spec. `Sys2Proof.Claims` holds the
phrases they share. In every statement about an instruction the state is the one `exec` is given: PC at the opcode
byte. -/
namespace Sys2Proof.Claims

open Sys2Proof.Machine

/-- The byte at an address given as a number, modulo 65536. -/
def byteAt (s : State) (n : Nat) : Byte := s.memRead (BitVec.ofNat 16 n)

/-- Every byte of memory reads as before. -/
def SameMemory (s t : State) : Prop := ∀ w : Word, t.memRead w = s.memRead w

/-- The byte at `addr` reads `v`, every other byte reads as before. -/
def Stores (s t : State) (addr : Word) (v : Byte) : Prop :=
  ∀ w : Word, t.memRead w = if w = addr then v else s.memRead w

/-- The run state and the diagnostics are unchanged. -/
def SameLoop (s t : State) : Prop := t.runState = s.runState ∧ t.diag = s.diag

/-- The general registers and SP hold these values. -/
def Regs (t : State) (a x y sp : Byte) : Prop := t.a = a ∧ t.x = x ∧ t.y = y ∧ t.sp = sp

/-- PC stands `n` bytes further, modulo 65536. -/
def Advanced (s t : State) (n : Nat) : Prop := t.pc.toNat = (s.pc.toNat + n) % 65536

/-- `q` is `p` after SetZN(v): bits 1 and 7 from `v`, every other bit as it was (R41). -/
def ZeroNegative (p q v : Byte) : Prop :=
  q.getLsbD 1 = decide (v.toNat = 0) ∧ q.getLsbD 7 = decide (128 ≤ v.toNat) ∧
    ∀ k, k ≠ 1 → k ≠ 7 → q.getLsbD k = p.getLsbD k

/-- `q` is `p` with C, Z and N written, C being `c` and Z and N those of `v`. -/
def CarryZeroNegative (p q : Byte) (c : Bool) (v : Byte) : Prop :=
  q.getLsbD 0 = c ∧ q.getLsbD 1 = decide (v.toNat = 0) ∧ q.getLsbD 7 = decide (128 ≤ v.toNat) ∧
    ∀ k, k ≠ 0 → k ≠ 1 → k ≠ 7 → q.getLsbD k = p.getLsbD k

/-- `q` is `p` with C, V, Z and N written. -/
def SumFlags (p q : Byte) (c v : Bool) (r : Byte) : Prop :=
  q.getLsbD 0 = c ∧ q.getLsbD 6 = v ∧ q.getLsbD 1 = decide (r.toNat = 0) ∧ q.getLsbD 7 = decide (128 ≤ r.toNat) ∧
    ∀ k, k ≠ 0 → k ≠ 1 → k ≠ 6 → k ≠ 7 → q.getLsbD k = p.getLsbD k

/-- A read instruction whose result goes to one register by SetZN, nothing else changing but PC. -/
def WritesResult (i : Instr) (s : State) (r : Byte) (regs : State → Prop) : Prop :=
  ∃ t, exec i s = .next t ∧ regs t ∧ ZeroNegative s.p t.p r ∧ Advanced s t i.length ∧ SameMemory s t ∧ SameLoop s t

/-- An instruction of the opcode map: its opcode byte by mode, and none in any other mode (R97). -/
def HasOpcodes {α : Type} (c : α → Instr) (row : List (Mode × Byte)) : Prop :=
  ∀ op, (c op).opcode? = row.lookup (c op).mode

/-- A shift or rotate by the common rule of R220: `res` is the result from the operand and the previous carry, `out`
the bit shifted out. -/
def Shifts (i : ShiftOperand → Instr) (res : Nat → Nat → Nat) (out : Byte → Bool) : Prop :=
  ∀ (op : ShiftOperand) (s : State), ∃ t r,
    exec (i op) s = .next t ∧
    r.toNat = res (loadTarget op s).toNat (s.p.getLsbD 0).toNat ∧
    CarryZeroNegative s.p t.p (out (loadTarget op s)) r ∧
    (match op with
      | .accumulator => Regs t r s.x s.y s.sp ∧ SameMemory s t
      | .mem m => Regs t s.a s.x s.y s.sp ∧ Stores s t (ea m s) r) ∧
    Advanced s t (i op).length ∧ SameLoop s t

/-- A compare of `reg` (R189): the flags of the subtraction, nothing stored. -/
def Compares (i : Instr) (s : State) (reg m : Byte) : Prop :=
  ∃ t, exec i s = .next t ∧ Regs t s.a s.x s.y s.sp ∧
    t.p.getLsbD 0 = decide (m.toNat ≤ reg.toNat) ∧ t.p.getLsbD 1 = decide (reg = m) ∧
    t.p.getLsbD 7 = decide (128 ≤ (reg.toNat + 256 - m.toNat) % 256) ∧
    (∀ k, k ≠ 0 → k ≠ 1 → k ≠ 7 → t.p.getLsbD k = s.p.getLsbD k) ∧
    Advanced s t i.length ∧ SameMemory s t ∧ SameLoop s t

/-- A branch taken exactly when bit `k` of P is `v` (R240): only PC changes. -/
def Branches (i : Byte → Instr) (k : Nat) (v : Bool) : Prop :=
  ∀ (d : Byte) (s : State), ∃ t, exec (i d) s = .next t ∧
    (t.pc.toNat : Int) =
      (if s.p.getLsbD k = v then ((s.pc.toNat : Int) + 2 + d.toInt) % 65536 else ((s.pc.toNat : Int) + 2) % 65536) ∧
    Regs t s.a s.x s.y s.sp ∧ t.p = s.p ∧ SameMemory s t ∧ SameLoop s t

/-- A flag instruction: bit `k` of P becomes `v`, and nothing else changes but PC (R275 to R281). -/
def WritesOneFlag (i : Instr) (k : Nat) (v : Bool) : Prop :=
  ∀ s : State, ∃ t, exec i s = .next t ∧ t.p.getLsbD k = v ∧ (∀ j, j ≠ k → t.p.getLsbD j = s.p.getLsbD j) ∧
    Regs t s.a s.x s.y s.sp ∧ Advanced s t 1 ∧ SameMemory s t ∧ SameLoop s t

/-- The stack address for a value of SP, as a number: always in page 1 (R68). -/
def stackAt (sp : Byte) : Nat := 256 + sp.toNat

/-- A push instruction: writes `v` at the stack address, and SP goes down by one, wrapping (R70). -/
def Pushes (i : Instr) (s : State) (v : Byte) : Prop :=
  ∃ t, exec i s = .next t ∧ t.a = s.a ∧ t.x = s.x ∧ t.y = s.y ∧ t.p = s.p ∧
    t.sp.toNat = (s.sp.toNat + 255) % 256 ∧
    (∀ w : Word, t.memRead w = if w.toNat = stackAt s.sp then v else s.memRead w) ∧
    Advanced s t 1 ∧ SameLoop s t

/-! Who may write what: the lists of R32 to R36, R43, R45 to R48. -/

def writesA : Instr → Bool
  | .lda _ | .txa | .tya | .pla | .adc _ | .sbc _ | .and _ | .ora _ | .eor _
  | .asl .accumulator | .lsr .accumulator | .rol .accumulator | .ror .accumulator => true
  | _ => false

def writesX : Instr → Bool
  | .ldx _ | .tax | .tsx | .inx | .dex => true
  | _ => false

def writesY : Instr → Bool
  | .ldy _ | .tay | .iny | .dey => true
  | _ => false

def writesSP : Instr → Bool
  | .txs | .pha | .php | .pla | .plp | .jsr _ | .rts | .rti => true
  | _ => false

/-- Instructions that write PC themselves (R36). -/
def writesPC : Instr → Bool
  | .bpl _ | .bmi _ | .bvc _ | .bvs _ | .bcc _ | .bcs _ | .bne _ | .beq _ | .jmp _ | .jsr _ | .rts | .rti => true
  | _ => false

def writesC : Instr → Bool
  | .adc _ | .sbc _ | .cmp _ | .cpx _ | .cpy _ | .asl _ | .lsr _ | .rol _ | .ror _ | .sec | .clc | .plp | .rti => true
  | _ => false

def writesV : Instr → Bool
  | .adc _ | .sbc _ | .bit _ | .clv | .plp | .rti => true
  | _ => false

/-- The writers of Z, who are the writers of N (R48). -/
def writesZN : Instr → Bool
  | .lda _ | .ldx _ | .ldy _ | .tax | .tay | .txa | .tya | .tsx | .adc _ | .sbc _ | .and _ | .ora _ | .eor _
  | .bit _ | .cmp _ | .cpx _ | .cpy _ | .inc _ | .dec _ | .inx | .iny | .dex | .dey
  | .asl _ | .lsr _ | .rol _ | .ror _ | .pla | .plp | .rti => true
  | _ => false

def writesI : Instr → Bool
  | .sei | .cli | .plp | .rti => true
  | _ => false

def writesD : Instr → Bool
  | .sed | .cld | .plp | .rti => true
  | _ => false

def writesB : Instr → Bool
  | .brk | .plp | .rti => true
  | _ => false

/-- Instructions that read a parameter of R10: JMP (Indirect), ADC, SBC, an undefined opcode. -/
def readsParameter : Instr → Bool
  | .jmp (.indirect _) | .adc _ | .sbc _ | .undefined _ => true
  | _ => false

/-- Instructions that write memory at an effective address. -/
def storesAt : Instr → Option MemOperand
  | .sta op => some op
  | .stx op => some op
  | .sty op => some op
  | .inc op => some op
  | .dec op => some op
  | .asl (.mem op) => some op
  | .lsr (.mem op) => some op
  | .rol (.mem op) => some op
  | .ror (.mem op) => some op
  | _ => none

/-- Instructions that write memory through the stack. -/
def pushesBytes : Instr → Bool
  | .pha | .php | .jsr _ => true
  | _ => false

end Sys2Proof.Claims

open Sys2Proof Sys2Proof.Machine Sys2Proof.Claims

/-! ## Encoding -/

/-- 30_encoding.md R90 to R97: every well-formed instruction encodes in its own length, and decoding the bytes, with
anything after them, gives it back. R96 and R97 are written apart in the model; the opcode bytes are the spec's
decision D13 (log entry 4). -/
def Obligations.DecodeOfEncode : Prop :=
  ∀ (i : Instr) (rest : List Byte), i.wellFormed = true →
    ∃ bytes, encode i = some bytes ∧ bytes.length = i.length ∧ decode (bytes ++ rest) = .ok (i, rest)

/-- 30_encoding.md R90, R99: what the decoder reads is a well-formed instruction, and the bytes it took are that
instruction's encoding: no two byte strings mean one instruction. -/
def Obligations.EncodeOfDecode : Prop :=
  ∀ (bs rest : List Byte) (i : Instr), decode bs = .ok (i, rest) →
    i.wellFormed = true ∧ ∃ taken, encode i = some taken ∧ bs = taken ++ rest

/-- 30_encoding.md R93, R95: the dispatcher is total: every opcode byte, followed by enough bytes, decodes, and the
length is told by the opcode. -/
def Obligations.EveryOpcodeByteDecodes : Prop :=
  ∀ (op b1 b2 : Byte), ∃ i, decode [op, b1, b2] = .ok (i, [b1, b2].drop (i.length - 1)) ∧ i.opcode? = some op ∧
    ∀ c1 c2 : Byte, ∃ j, decode [op, c1, c2] = .ok (j, [c1, c2].drop (i.length - 1)) ∧ j.length = i.length

/-- 30_encoding.md R98, R100: a byte decodes to the undefined outcome exactly when it is one of the 105, and then takes
no operand byte. -/
def Obligations.UndefinedBytesDecode : Prop :=
  ∀ (op : Byte) (rest : List Byte),
    (decode (op :: rest) = .ok (.undefined op, rest) ↔ op ∈ undefinedOpcodes) ∧ undefinedOpcodes.length = 105

/-- 30_encoding.md R97, row by row (the byte values are the spec's decision D13, log entry 4). -/
def Obligations.OpcodeBytesByMnemonic : Prop :=
  (HasOpcodes .lda [(.immediate, 0xA9), (.zeroPage, 0xA5), (.zeroPageX, 0xB5), (.absolute, 0xAD), (.absoluteX, 0xBD),
    (.absoluteY, 0xB9), (.indirectX, 0xA1), (.indirectY, 0xB1)] ∧
  HasOpcodes .ldx [(.immediate, 0xA2), (.zeroPage, 0xA6), (.zeroPageY, 0xB6), (.absolute, 0xAE), (.absoluteY, 0xBE)] ∧
  HasOpcodes .ldy [(.immediate, 0xA0), (.zeroPage, 0xA4), (.zeroPageX, 0xB4), (.absolute, 0xAC), (.absoluteX, 0xBC)] ∧
  HasOpcodes .sta [(.zeroPage, 0x85), (.zeroPageX, 0x95), (.absolute, 0x8D), (.absoluteX, 0x9D), (.absoluteY, 0x99),
    (.indirectX, 0x81), (.indirectY, 0x91)] ∧
  HasOpcodes .stx [(.zeroPage, 0x86), (.zeroPageY, 0x96), (.absolute, 0x8E)] ∧
  HasOpcodes .sty [(.zeroPage, 0x84), (.zeroPageX, 0x94), (.absolute, 0x8C)]) ∧
  (HasOpcodes .adc [(.immediate, 0x69), (.zeroPage, 0x65), (.zeroPageX, 0x75), (.absolute, 0x6D), (.absoluteX, 0x7D),
    (.absoluteY, 0x79), (.indirectX, 0x61), (.indirectY, 0x71)] ∧
  HasOpcodes .sbc [(.immediate, 0xE9), (.zeroPage, 0xE5), (.zeroPageX, 0xF5), (.absolute, 0xED), (.absoluteX, 0xFD),
    (.absoluteY, 0xF9), (.indirectX, 0xE1), (.indirectY, 0xF1)] ∧
  HasOpcodes .and [(.immediate, 0x29), (.zeroPage, 0x25), (.zeroPageX, 0x35), (.absolute, 0x2D), (.absoluteX, 0x3D),
    (.absoluteY, 0x39), (.indirectX, 0x21), (.indirectY, 0x31)] ∧
  HasOpcodes .ora [(.immediate, 0x09), (.zeroPage, 0x05), (.zeroPageX, 0x15), (.absolute, 0x0D), (.absoluteX, 0x1D),
    (.absoluteY, 0x19), (.indirectX, 0x01), (.indirectY, 0x11)] ∧
  HasOpcodes .eor [(.immediate, 0x49), (.zeroPage, 0x45), (.zeroPageX, 0x55), (.absolute, 0x4D), (.absoluteX, 0x5D),
    (.absoluteY, 0x59), (.indirectX, 0x41), (.indirectY, 0x51)] ∧
  HasOpcodes .cmp [(.immediate, 0xC9), (.zeroPage, 0xC5), (.zeroPageX, 0xD5), (.absolute, 0xCD), (.absoluteX, 0xDD),
    (.absoluteY, 0xD9), (.indirectX, 0xC1), (.indirectY, 0xD1)] ∧
  HasOpcodes .cpx [(.immediate, 0xE0), (.zeroPage, 0xE4), (.absolute, 0xEC)] ∧
  HasOpcodes .cpy [(.immediate, 0xC0), (.zeroPage, 0xC4), (.absolute, 0xCC)] ∧
  HasOpcodes .bit [(.zeroPage, 0x24), (.absolute, 0x2C)] ∧
  HasOpcodes .inc [(.zeroPage, 0xE6), (.zeroPageX, 0xF6), (.absolute, 0xEE), (.absoluteX, 0xFE)] ∧
  HasOpcodes .dec [(.zeroPage, 0xC6), (.zeroPageX, 0xD6), (.absolute, 0xCE), (.absoluteX, 0xDE)]) ∧
  (HasOpcodes .asl [(.accumulator, 0x0A), (.zeroPage, 0x06), (.zeroPageX, 0x16), (.absolute, 0x0E), (.absoluteX, 0x1E)] ∧
  HasOpcodes .lsr [(.accumulator, 0x4A), (.zeroPage, 0x46), (.zeroPageX, 0x56), (.absolute, 0x4E), (.absoluteX, 0x5E)] ∧
  HasOpcodes .rol [(.accumulator, 0x2A), (.zeroPage, 0x26), (.zeroPageX, 0x36), (.absolute, 0x2E), (.absoluteX, 0x3E)] ∧
  HasOpcodes .ror [(.accumulator, 0x6A), (.zeroPage, 0x66), (.zeroPageX, 0x76), (.absolute, 0x6E), (.absoluteX, 0x7E)]) ∧
  (HasOpcodes .bpl [(.relative, 0x10)] ∧ HasOpcodes .bmi [(.relative, 0x30)] ∧ HasOpcodes .bvc [(.relative, 0x50)] ∧
  HasOpcodes .bvs [(.relative, 0x70)] ∧ HasOpcodes .bcc [(.relative, 0x90)] ∧ HasOpcodes .bcs [(.relative, 0xB0)] ∧
  HasOpcodes .bne [(.relative, 0xD0)] ∧ HasOpcodes .beq [(.relative, 0xF0)] ∧
  HasOpcodes .jmp [(.absolute, 0x4C), (.indirect, 0x6C)] ∧ HasOpcodes .jsr [(.absolute, 0x20)]) ∧
  ([Instr.tax, .tay, .txa, .tya, .tsx, .txs, .inx, .iny, .dex, .dey, .rts, .brk, .rti, .pha, .php, .pla, .plp,
    .clc, .sec, .cli, .sei, .cld, .sed, .clv, .nop].map Instr.opcode? =
   ([0xAA, 0xA8, 0x8A, 0x98, 0xBA, 0x9A, 0xE8, 0xC8, 0xCA, 0x88, 0x60, 0x00, 0x40, 0x48, 0x08, 0x68, 0x28,
    0x18, 0x38, 0x58, 0x78, 0xD8, 0xF8, 0xB8, 0xEA] : List Byte).map some)

/-- 30_encoding.md R101, the thirteen examples of its table (Relative for every displacement byte `dd`): bytes written
out, decoded. A sanity statement. -/
def Obligations.SyntaxTableExamplesDecode : Prop :=
  decode [0xE8] = .ok (.inx, []) ∧ decode [0x0A] = .ok (.asl .accumulator, []) ∧
  decode [0xA9, 0x05] = .ok (.lda (.immediate 0x05), []) ∧
  decode [0xA5, 0x10] = .ok (.lda (.mem (.zeroPage 0x10)), []) ∧
  decode [0xB5, 0x10] = .ok (.lda (.mem (.zeroPageX 0x10)), []) ∧
  decode [0xB6, 0x10] = .ok (.ldx (.mem (.zeroPageY 0x10)), []) ∧
  (∀ dd : Byte, decode [0xD0, dd] = .ok (.bne dd, [])) ∧
  decode [0x4C, 0x00, 0x80] = .ok (.jmp (.absolute 0x8000), []) ∧
  decode [0xBD, 0x34, 0x12] = .ok (.lda (.mem (.absoluteX 0x1234)), []) ∧
  decode [0xB9, 0x34, 0x12] = .ok (.lda (.mem (.absoluteY 0x1234)), []) ∧
  decode [0x6C, 0x20, 0x01] = .ok (.jmp (.indirect 0x0120), []) ∧
  decode [0xA1, 0x20] = .ok (.lda (.mem (.indirectX 0x20)), []) ∧
  decode [0xB1, 0x20] = .ok (.lda (.mem (.indirectY 0x20)), [])

/-! ## Creation, memory, invariants -/

/-- 70_reset_and_hazards.md R360. The run state and the empty `diag` are the spec's decisions D15 and D26 (log entries
6 and 19). -/
def Obligations.CreationState : Prop :=
  State.reset.pc = 0x0000 ∧ State.reset.sp = 0x00 ∧ State.reset.a = 0x00 ∧ State.reset.x = 0x00 ∧
  State.reset.y = 0x00 ∧ State.reset.p = 0x00 ∧ State.reset.runState = .halted ∧ State.reset.diag = [] ∧
  ∀ w : Word, State.reset.memRead w = 0x00

/-- 20_memory.md R61: a read gives the byte last written at that address, zero if none since creation; a write replaces
that byte and touches nothing else. -/
def Obligations.BusContract : Prop :=
  (∀ w : Word, State.reset.memRead w = 0x00) ∧
  ∀ (s : State) (addr : Word) (v : Byte),
    Stores s (s.memWrite addr v) addr v ∧ { s.memWrite addr v with mem := s.mem } = s

/-- The invariant holds at creation. -/
def Obligations.CreationMemoryIsCanonical : Prop := State.reset.Inv

/-- Every step keeps the canonical form of memory: addresses rising and within the 65536 of R60, and no zero byte
listed, so that equal memories are equal data (log entry 8). -/
def Obligations.StepKeepsMemoryCanonical : Prop :=
  ∀ s t : State, s.Inv → step s = .next t → t.Inv

/-! ## The execution loop -/

/-- 46_execution_loop.md R301: the bytes at PC decode to `i`; then a step of a running core is `exec i`, with PC at the
opcode byte, followed by the halt check of R306, which writes the run state alone. -/
def Obligations.StepRunsDecodedInstruction : Prop :=
  ∀ (s : State) (n : Nat) (i : Instr) (rest : List Byte),
    s.runState = .running → decode (s.bytesFrom s.pc n) = .ok (i, rest) →
      ∃ u, exec i s = .next u ∧ step s = .next (if u.p.getLsbD 4 then { u with runState := .halted } else u)

/-- 20_memory.md R74, 46_execution_loop.md R302: what is fetched is the opcode byte at PC and the operand bytes after
it, at increasing addresses modulo 65536, as many as the mode's width. -/
def Obligations.FetchReadsTheBytesAtPC : Prop :=
  ∀ s : State, s.fetchInstr.wellFormed = true ∧
    encode s.fetchInstr = some (s.bytesFrom s.pc s.fetchInstr.length) ∧
    ∀ (w : Word) (n k : Nat), k < n → (s.bytesFrom w n)[k]? = some (byteAt s ((w.toNat + k) % 65536))

/-- 60_exceptions.md R330: a running core always has a next state, whatever byte PC points at: no exception, no fault,
no refusal. -/
def Obligations.RunningCoreAlwaysSteps : Prop := ∀ s : State, s.runState = .running → StepsOn s

/-- 46_execution_loop.md R307 (the spec's decision D25; that "no transition" is a named fault is log entry 5): a halted
core has no step, and the host's call of `step` on it changes nothing. -/
def Obligations.HaltedCoreHasNoStep : Prop :=
  ∀ s : State, s.runState = .halted → step s = .fault .halted ∧ hostStep s = .next s

/-- 46_execution_loop.md R306 (decisions D2 and D24, log entry 11): after any step the core is Halted exactly when
P[4] is 1. -/
def Obligations.HaltedAfterStepIffBreakSet : Prop :=
  ∀ s t : State, step s = .next t → (t.runState = .halted ↔ t.p.getLsbD 4 = true)

/-- 60_exceptions.md R331: a step appends one diagnostic, the address and the byte, if the opcode is undefined, and
none otherwise; an undefined opcode changes nothing else but PC and, by the halt check, the run state. -/
def Obligations.DiagnosticsAreEvents : Prop :=
  ∀ s t : State, step s = .next t →
    if s.memRead s.pc ∈ undefinedOpcodes then
      t.diag = s.diag ++ [⟨s.pc, s.memRead s.pc⟩] ∧ Regs t s.a s.x s.y s.sp ∧ t.p = s.p ∧ Advanced s t 1 ∧
        SameMemory s t
    else t.diag = s.diag

/-- 46_execution_loop.md R310 (decisions D24, D25; log entries 5, 11; the run is bounded by some number of steps, log
entry 22): a run the host starts ends in a state with P[4] = 1. -/
def Obligations.EndStateHasBreakSet : Prop :=
  ∀ (s t : State) (addr : Word), EndsIn s addr t → t.p.getLsbD 4 = true

/-- 46_execution_loop.md R308 (decision D27, log entry 22): stopping after `m` steps and going on gives what the longer run gives. -/
def Obligations.StoppedRunContinues : Prop :=
  ∀ (m n : Nat) (s t : State), runFor m s = .next t → runFor (m + n) s = runFor n t

/-- 46_execution_loop.md R312 (from decision D15, log entry 17): a core with P[4] = 1 that is started again runs one
instruction and halts, unless that instruction is PLP or RTI. -/
def Obligations.RestartedCoreHaltsAfterOneStep : Prop :=
  ∀ (s t : State) (addr : Word), s.p.getLsbD 4 = true → step (s.start addr) = .next t →
    (s.start addr).fetchInstr ≠ .plp → (s.start addr).fetchInstr ≠ .rti → t.runState = .halted

/-! ## Who writes what -/

/-- 10_state.md R37: an instruction that does not write PC leaves it at its first byte's address plus its length,
modulo 65536. -/
def Obligations.PCAdvancesByLength : Prop :=
  ∀ (i : Instr) (s : State), writesPC i = false → ∃ t, exec i s = .next t ∧ Advanced s t i.length

/-- 10_state.md R43, R45 to R48 (derived in the spec): each bit of P changes only under the instructions listed as its
writers. -/
def Obligations.StatusBitWriters : Prop :=
  ∀ (i : Instr) (s t : State), exec i s = .next t →
    (writesC i = false → t.p.getLsbD 0 = s.p.getLsbD 0) ∧
    (writesZN i = false → t.p.getLsbD 1 = s.p.getLsbD 1 ∧ t.p.getLsbD 7 = s.p.getLsbD 7) ∧
    (writesI i = false → t.p.getLsbD 2 = s.p.getLsbD 2) ∧
    (writesD i = false → t.p.getLsbD 3 = s.p.getLsbD 3) ∧
    (writesB i = false → t.p.getLsbD 4 = s.p.getLsbD 4 ∧ t.p.getLsbD 5 = s.p.getLsbD 5) ∧
    (writesV i = false → t.p.getLsbD 6 = s.p.getLsbD 6)

/-- 10_state.md R32 to R35: A, X, Y and SP change only under the instructions listed as their writers; no instruction
changes the run state (only the halt check does). -/
def Obligations.RegisterWriters : Prop :=
  ∀ (i : Instr) (s t : State), exec i s = .next t →
    (writesA i = false → t.a = s.a) ∧ (writesX i = false → t.x = s.x) ∧ (writesY i = false → t.y = s.y) ∧
    (writesSP i = false → t.sp = s.sp) ∧ t.runState = s.runState

/-- 20_memory.md R63, R64, R68: a byte of memory changes only at the effective address of a store or read-modify-write
instruction, or in the stack page under PHA, PHP or JSR. -/
def Obligations.MemoryWriters : Prop :=
  ∀ (i : Instr) (s t : State) (w : Word), exec i s = .next t → t.memRead w ≠ s.memRead w →
    (∃ op, storesAt i = some op ∧ w = ea op s) ∨ (pushesBytes i = true ∧ 0x0100 ≤ w.toNat ∧ w.toNat ≤ 0x01FF)

/-- 10_state.md R45 (decision D17): two states that differ in P.I alone run alike: PHP apart, they go to states that
differ at most in P.I. -/
def Obligations.InterruptDisableGatesNothing : Prop :=
  ∀ (i : Instr) (s s' t : State), i ≠ .php → { s' with p := s.p } = s →
    (∀ k, k ≠ 2 → s'.p.getLsbD k = s.p.getLsbD k) → exec i s = .next t →
    ∃ t', exec i s' = .next t' ∧ { t' with p := t.p } = t ∧ ∀ k, k ≠ 2 → t'.p.getLsbD k = t.p.getLsbD k

/-! ## Addressing modes -/

/-- 40_addressing_modes.md R124 to R129: the effective address of each mode that reads no pointer, with its wrap;
R123, R138 and 30_encoding.md R94: the operand read is the immediate byte, or the byte at the effective address; and
43_shift_rotate.md R220: the target a shift or rotate loads is A, or that byte. -/
def Obligations.DirectEffectiveAddresses : Prop :=
  ∀ (s : State) (zp : Byte) (addr : Word),
    (ea (.zeroPage zp) s).toNat = zp.toNat ∧
    (ea (.zeroPageX zp) s).toNat = (zp.toNat + s.x.toNat) % 256 ∧
    (ea (.zeroPageY zp) s).toNat = (zp.toNat + s.y.toNat) % 256 ∧
    (ea (.absolute addr) s).toNat = addr.toNat ∧
    (ea (.absoluteX addr) s).toNat = (addr.toNat + s.x.toNat) % 65536 ∧
    (ea (.absoluteY addr) s).toNat = (addr.toNat + s.y.toNat) % 65536 ∧
    (∀ b : Byte, readOperand (.immediate b) s = b) ∧
    (∀ m : MemOperand, readOperand (.mem m) s = s.memRead (ea m s)) ∧
    loadTarget .accumulator s = s.a ∧
    ∀ m : MemOperand, loadTarget (.mem m) s = s.memRead (ea m s)

/-- 40_addressing_modes.md R131, R132: the pointer modes; that the pointer's high byte wraps inside the zero page is the
spec's decision D9 (log entry 15). -/
def Obligations.PointerEffectiveAddresses : Prop :=
  ∀ (s : State) (zp : Byte),
    (ea (.indirectX zp) s).toNat =
      (byteAt s ((zp.toNat + s.x.toNat + 1) % 256)).toNat * 256 + (byteAt s ((zp.toNat + s.x.toNat) % 256)).toNat ∧
    (ea (.indirectY zp) s).toNat =
      ((byteAt s ((zp.toNat + 1) % 256)).toNat * 256 + (byteAt s zp.toNat).toNat + s.y.toNat) % 65536

/-- 40_addressing_modes.md R130, for both values of JMP_IND_PAGE_WRAP (decision D8, log entry 1): where JMP goes through
a pointer. -/
def Obligations.IndirectJumpTarget : Prop :=
  ∀ (cfg : Config) (ptr : Word) (s : State), ∃ t, execIn cfg (.jmp (.indirect ptr)) s = .next t ∧
    t.pc.toNat =
      (byteAt s (if cfg.jmpIndPageWrap then ptr.toNat / 256 * 256 + (ptr.toNat + 1) % 256
        else (ptr.toNat + 1) % 65536)).toNat * 256 + (byteAt s ptr.toNat).toNat ∧
    { t with pc := s.pc } = s

/-! ## Loads, stores, transfers -/

/-- 41_load_store_transfer.md R151 to R153: LDA, LDX, LDY in every form. -/
def Obligations.LoadsWriteTheirRegister : Prop :=
  ∀ (op : ReadOperand) (s : State),
    WritesResult (.lda op) s (readOperand op s) (fun t => Regs t (readOperand op s) s.x s.y s.sp) ∧
    WritesResult (.ldx op) s (readOperand op s) (fun t => Regs t s.a (readOperand op s) s.y s.sp) ∧
    WritesResult (.ldy op) s (readOperand op s) (fun t => Regs t s.a s.x (readOperand op s) s.sp)

/-- 41_load_store_transfer.md R154 to R156 (semantics supplied by the spec, D22, log entry 16): STA, STX, STY write one
byte, at the effective address, and no flag. -/
def Obligations.StoresWriteOneByte : Prop :=
  ∀ (op : MemOperand) (s : State), ∀ iv ∈ [(Instr.sta op, s.a), (Instr.stx op, s.x), (Instr.sty op, s.y)],
    ∃ t, exec iv.1 s = .next t ∧ Stores s t (ea op s) iv.2 ∧ Regs t s.a s.x s.y s.sp ∧ t.p = s.p ∧
      Advanced s t iv.1.length ∧ SameLoop s t

/-- 41_load_store_transfer.md R157 to R160: TAX, TAY, TXA, TYA. -/
def Obligations.TransfersSetZeroNegative : Prop :=
  ∀ s : State,
    WritesResult .tax s s.a (fun t => Regs t s.a s.a s.y s.sp) ∧
    WritesResult .tay s s.a (fun t => Regs t s.a s.x s.a s.sp) ∧
    WritesResult .txa s s.x (fun t => Regs t s.x s.x s.y s.sp) ∧
    WritesResult .tya s s.y (fun t => Regs t s.y s.x s.y s.sp)

/-- 41_load_store_transfer.md R161, R162 (decision D32): TSX sets Z and N, TXS touches no flag. -/
def Obligations.StackPointerTransfers : Prop :=
  ∀ s : State,
    WritesResult .tsx s s.sp (fun t => Regs t s.a s.sp s.y s.sp) ∧
    ∃ t, exec .txs s = .next t ∧ Regs t s.a s.x s.y s.x ∧ t.p = s.p ∧ Advanced s t 1 ∧ SameMemory s t ∧ SameLoop s t

/-! ## Arithmetic and logic -/

/-- 42_arithmetic_logic.md R181: the closed form of AddWithCarry is unsigned overflow and two's-complement overflow. -/
def Obligations.AddWithCarryIsExact : Prop :=
  ∀ (a b : Byte) (cin : Bool),
    (addWithCarry a b cin).result.toNat = (a.toNat + b.toNat + cin.toNat) % 256 ∧
    ((addWithCarry a b cin).carry = true ↔ 256 ≤ a.toNat + b.toNat + cin.toNat) ∧
    ((addWithCarry a b cin).overflow = true ↔
      a.getLsbD 7 = b.getLsbD 7 ∧ (addWithCarry a b cin).result.getLsbD 7 ≠ a.getLsbD 7) ∧
    ((addWithCarry a b cin).overflow = true ↔
      ((a ^^^ (addWithCarry a b cin).result) &&& (b ^^^ (addWithCarry a b cin).result)).getLsbD 7 = true) ∧
    ((addWithCarry a b cin).overflow = true ↔
      (a.toInt + b.toInt + (cin.toNat : Int) < -128 ∨ 127 < a.toInt + b.toInt + (cin.toNat : Int)))

/-- 42_arithmetic_logic.md R180; binary whatever D holds is decision D11 (log entry 2): ADC in every form. -/
def Obligations.AddWritesSumAndFlags : Prop :=
  ∀ (op : ReadOperand) (s : State), ∃ t r,
    exec (.adc op) s = .next t ∧
    r.toNat = (s.a.toNat + (readOperand op s).toNat + (s.p.getLsbD 0).toNat) % 256 ∧ Regs t r s.x s.y s.sp ∧
    SumFlags s.p t.p (decide (256 ≤ s.a.toNat + (readOperand op s).toNat + (s.p.getLsbD 0).toNat))
      (decide (s.a.toInt + (readOperand op s).toInt + ((s.p.getLsbD 0).toNat : Int) < -128 ∨
        127 < s.a.toInt + (readOperand op s).toInt + ((s.p.getLsbD 0).toNat : Int))) r ∧
    Advanced s t (Instr.adc op).length ∧ SameMemory s t ∧ SameLoop s t

/-- 42_arithmetic_logic.md R182, R183 (decisions D11, D30; log entry 2), with borrow = 1 - C: SBC in every form: the
difference modulo 256, C exactly when nothing is borrowed, V when the signed difference is out of range. -/
def Obligations.SubtractWritesDifferenceAndFlags : Prop :=
  ∀ (op : ReadOperand) (s : State), ∃ t r,
    exec (.sbc op) s = .next t ∧
    (r.toNat : Int) = ((s.a.toNat : Int) - (readOperand op s).toNat - (1 - ((s.p.getLsbD 0).toNat : Int))) % 256 ∧
    Regs t r s.x s.y s.sp ∧
    SumFlags s.p t.p
      (decide (0 ≤ (s.a.toNat : Int) - (readOperand op s).toNat - (1 - ((s.p.getLsbD 0).toNat : Int))))
      (decide (s.a.toInt - (readOperand op s).toInt - (1 - ((s.p.getLsbD 0).toNat : Int)) < -128 ∨
        127 < s.a.toInt - (readOperand op s).toInt - (1 - ((s.p.getLsbD 0).toNat : Int)))) r ∧
    Advanced s t (Instr.sbc op).length ∧ SameMemory s t ∧ SameLoop s t

/-- 00_scope.md R10: the machine under every value of the parameters. What the `refuse` values do, and that they do it
only on D = 1 and on undefined opcodes (R180, R182, R283; JMP is in IndirectJumpTarget); that no other instruction
reads a parameter; that a step and a run go by the configured meaning and end where it refuses; and that at the decided
values (decisions D8, D10, D11; log entries 1, 2, 3) this is the machine itself. Two clauses rest on the model's own
choices: that a halted core, to which R307 (D25) gives no step, answers the fault `halted` (log entry 5), and that a run
is bounded by a number of steps (log entry 22). -/
def Obligations.RefusePolicies : Prop :=
  ∀ (cfg : Config) (s : State),
    (∀ op : ReadOperand, cfg.decimalPolicy = .refuse → s.p.getLsbD 3 = true →
      execIn cfg (.adc op) s = .refused .decimalArithmetic ∧ execIn cfg (.sbc op) s = .refused .decimalArithmetic) ∧
    (∀ op : ReadOperand, cfg.decimalPolicy = .ignore ∨ s.p.getLsbD 3 = false →
      execIn cfg (.adc op) s = exec (.adc op) s ∧ execIn cfg (.sbc op) s = exec (.sbc op) s) ∧
    (∀ b : Byte, cfg.undefinedPolicy = .refuse →
      execIn cfg (.undefined b) s = .refused (.undefinedOpcode s.pc b)) ∧
    (∀ b : Byte, cfg.undefinedPolicy = .nopDiagnostic → execIn cfg (.undefined b) s = exec (.undefined b) s) ∧
    (∀ i : Instr, readsParameter i = false → execIn cfg i s = exec i s) ∧
    (∀ u, s.runState = .running → execIn cfg s.fetchInstr s = .next u → stepIn cfg s = .next u.haltCheck ∧
      ∀ n, runForIn cfg (n + 1) s = runForIn cfg n u.haltCheck) ∧
    (∀ r, s.runState = .running → execIn cfg s.fetchInstr s = .refused r → stepIn cfg s = .refused r ∧
      ∀ n, runForIn cfg (n + 1) s = .refused r) ∧
    (s.runState = .halted → stepIn cfg s = .fault .halted ∧ ∀ n, runForIn cfg n s = .next s) ∧
    stepIn decided s = step s ∧ ∀ n, runForIn decided n s = runFor n s

/-- 42_arithmetic_logic.md R184 to R187: AND, ORA, EOR in every form; C and V unchanged. -/
def Obligations.LogicWritesAccumulator : Prop :=
  ∀ (op : ReadOperand) (s : State),
    WritesResult (.and op) s (s.a &&& readOperand op s) (fun t => Regs t (s.a &&& readOperand op s) s.x s.y s.sp) ∧
    WritesResult (.ora op) s (s.a ||| readOperand op s) (fun t => Regs t (s.a ||| readOperand op s) s.x s.y s.sp) ∧
    WritesResult (.eor op) s (s.a ^^^ readOperand op s) (fun t => Regs t (s.a ^^^ readOperand op s) s.x s.y s.sp)

/-- 42_arithmetic_logic.md R188 (supplied by the spec, D22 and 90_conflicts.md C4; log entry 16): BIT. -/
def Obligations.BitTestFlags : Prop :=
  ∀ (op : MemOperand) (s : State), ∃ t,
    exec (.bit op) s = .next t ∧ Regs t s.a s.x s.y s.sp ∧
    t.p.getLsbD 1 = decide ((s.a &&& s.memRead (ea op s)).toNat = 0) ∧
    t.p.getLsbD 7 = (s.memRead (ea op s)).getLsbD 7 ∧ t.p.getLsbD 6 = (s.memRead (ea op s)).getLsbD 6 ∧
    (∀ k, k ≠ 1 → k ≠ 6 → k ≠ 7 → t.p.getLsbD k = s.p.getLsbD k) ∧
    Advanced s t (Instr.bit op).length ∧ SameMemory s t ∧ SameLoop s t

/-- 42_arithmetic_logic.md R189 to R192 (V unchanged is decision D31, log entry 16): CMP, CPX, CPY in every form. -/
def Obligations.ComparesSetFlagsOnly : Prop :=
  ∀ (op : ReadOperand) (s : State),
    Compares (.cmp op) s s.a (readOperand op s) ∧ Compares (.cpx op) s s.x (readOperand op s) ∧
    Compares (.cpy op) s s.y (readOperand op s)

/-- 42_arithmetic_logic.md R193, R194: INC and DEC in every form. -/
def Obligations.MemoryIncrementDecrement : Prop :=
  ∀ (op : MemOperand) (s : State), ∀ iv ∈ [(Instr.inc op, 1), (Instr.dec op, 255)],
    ∃ t r, exec iv.1 s = .next t ∧ r.toNat = ((s.memRead (ea op s)).toNat + iv.2) % 256 ∧
      Stores s t (ea op s) r ∧ ZeroNegative s.p t.p r ∧ Regs t s.a s.x s.y s.sp ∧
      Advanced s t iv.1.length ∧ SameLoop s t

/-- 42_arithmetic_logic.md R195 to R198: INX, INY, DEX, DEY, wrapping modulo 256. -/
def Obligations.RegisterIncrementDecrement : Prop :=
  ∀ s : State, ∃ ix iy dx dy : Byte,
    ix.toNat = (s.x.toNat + 1) % 256 ∧ iy.toNat = (s.y.toNat + 1) % 256 ∧
    dx.toNat = (s.x.toNat + 255) % 256 ∧ dy.toNat = (s.y.toNat + 255) % 256 ∧
    WritesResult .inx s ix (fun t => Regs t s.a ix s.y s.sp) ∧
    WritesResult .iny s iy (fun t => Regs t s.a s.x iy s.sp) ∧
    WritesResult .dex s dx (fun t => Regs t s.a dx s.y s.sp) ∧
    WritesResult .dey s dy (fun t => Regs t s.a s.x dy s.sp)

/-! ## Shifts and rotates -/

/-- 43_shift_rotate.md R220 to R224: ASL, LSR, ROL, ROR on A and on memory, in every form. -/
def Obligations.ShiftsAndRotates : Prop :=
  Shifts .asl (fun v _ => v * 2 % 256) (fun v => v.getLsbD 7) ∧
  Shifts .lsr (fun v _ => v / 2) (fun v => v.getLsbD 0) ∧
  Shifts .rol (fun v c => v * 2 % 256 + c) (fun v => v.getLsbD 7) ∧
  Shifts .ror (fun v c => v / 2 + c * 128) (fun v => v.getLsbD 0)

/-! ## Control transfer -/

/-- 44_control_transfer.md R240 to R248 (the base of the displacement is decision D5, the flag of each mnemonic D23; log
entries 15 and 16): the eight branches. -/
def Obligations.BranchesFollowTheirFlag : Prop :=
  Branches .bpl 7 false ∧ Branches .bmi 7 true ∧ Branches .bvc 6 false ∧ Branches .bvs 6 true ∧
  Branches .bcc 0 false ∧ Branches .bcs 0 true ∧ Branches .bne 1 false ∧ Branches .beq 1 true

/-- 44_control_transfer.md R249: JMP sets PC to the resolved address and changes nothing else; through a pointer at the
decided value of JMP_IND_PAGE_WRAP (decision D8, log entry 1). -/
def Obligations.JumpSetsPC : Prop :=
  ∀ s : State,
    (∀ addr : Word, ∃ t, exec (.jmp (.absolute addr)) s = .next t ∧ t.pc = addr ∧
      Regs t s.a s.x s.y s.sp ∧ t.p = s.p ∧ SameMemory s t ∧ SameLoop s t) ∧
    (∀ ptr : Word, ∃ t, exec (.jmp (.indirect ptr)) s = .next t ∧
      t.pc.toNat = (byteAt s (ptr.toNat / 256 * 256 + (ptr.toNat + 1) % 256)).toNat * 256 + (byteAt s ptr.toNat).toNat ∧
      Regs t s.a s.x s.y s.sp ∧ t.p = s.p ∧ SameMemory s t ∧ SameLoop s t)

/-- 44_control_transfer.md R250 (the push order is decision D6, log entry 13): JSR. -/
def Obligations.CallPushesReturnAddress : Prop :=
  ∀ (addr : Word) (s : State), ∃ t,
    exec (.jsr addr) s = .next t ∧ t.pc = addr ∧ t.a = s.a ∧ t.x = s.x ∧ t.y = s.y ∧ t.p = s.p ∧
    t.sp.toNat = (s.sp.toNat + 254) % 256 ∧
    (∀ w : Word, (t.memRead w).toNat =
      if w.toNat = stackAt (s.sp - 1) then (s.pc.toNat + 2) % 65536 % 256
      else if w.toNat = stackAt s.sp then (s.pc.toNat + 2) % 65536 / 256
      else (s.memRead w).toNat) ∧
    SameLoop s t

/-- 44_control_transfer.md R251 (the byte order is decision D6, log entry 13): RTS. -/
def Obligations.ReturnPullsAddressPlusOne : Prop :=
  ∀ s : State, ∃ t,
    exec .rts s = .next t ∧
    t.pc.toNat = ((byteAt s (stackAt (s.sp + 2))).toNat * 256 + (byteAt s (stackAt (s.sp + 1))).toNat + 1) % 65536 ∧
    Regs t s.a s.x s.y (s.sp + 2) ∧ t.p = s.p ∧ SameMemory s t ∧ SameLoop s t

/-- 44_control_transfer.md R251, 95_test_vectors.md S5: JSR, then any work that leaves SP and the two stacked bytes as
they were, then RTS, lands after the JSR with SP restored. -/
def Obligations.CallThenReturn : Prop :=
  ∀ (addr : Word) (s t u : State), exec (.jsr addr) s = .next t → u.sp = t.sp →
    (∀ k : Byte, k = t.sp + 1 ∨ k = t.sp + 2 → byteAt u (stackAt k) = byteAt t (stackAt k)) →
    ∃ v, exec .rts u = .next v ∧ v.pc.toNat = (s.pc.toNat + 3) % 65536 ∧ v.sp = s.sp

/-- 44_control_transfer.md R252 (decision D12, log entry 14): BRK sets the Break field and nothing else. -/
def Obligations.BreakSetsBreakField : Prop :=
  ∀ s : State, ∃ t, exec .brk s = .next t ∧ t.p.getLsbD 4 = true ∧ t.p.getLsbD 5 = true ∧
    (∀ k, k ≠ 4 → k ≠ 5 → t.p.getLsbD k = s.p.getLsbD k) ∧ Regs t s.a s.x s.y s.sp ∧ Advanced s t 1 ∧
    SameMemory s t ∧ SameLoop s t

/-- 44_control_transfer.md R253 (decisions D7 and D29, log entries 12 and 13): RTI. -/
def Obligations.ReturnFromInterruptRestores : Prop :=
  ∀ s : State, ∃ t, exec .rti s = .next t ∧ t.p = byteAt s (stackAt (s.sp + 1)) ∧
    t.pc.toNat = (byteAt s (stackAt (s.sp + 3))).toNat * 256 + (byteAt s (stackAt (s.sp + 2))).toNat ∧
    Regs t s.a s.x s.y (s.sp + 3) ∧ SameMemory s t ∧ SameLoop s t

/-! ## Stack, flags, NOP, undefined -/

/-- 20_memory.md R69 to R71: a push writes at 0x0100 + SP and lowers SP, a pull raises SP and reads there, SP wrapping
modulo 256, and neither touches anything else; a pull after a push gives the pushed byte and restores SP. -/
def Obligations.PushAndPull : Prop :=
  ∀ (s : State) (v : Byte),
    ((∀ w : Word, (s.push v).memRead w = if w.toNat = 256 + s.sp.toNat then v else s.memRead w) ∧
      (s.push v).sp.toNat = (s.sp.toNat + 255) % 256 ∧ { s.push v with sp := s.sp, mem := s.mem } = s) ∧
    (s.pullByte = byteAt s (256 + (s.sp.toNat + 1) % 256) ∧ s.pulled.sp.toNat = (s.sp.toNat + 1) % 256 ∧
      { s.pulled with sp := s.sp } = s) ∧
    (s.push v).pullByte = v ∧ (s.push v).pulled.sp = s.sp

/-- 45_stack_flag_misc.md R271: PHA. -/
def Obligations.PushAccumulator : Prop := ∀ s : State, Pushes .pha s s.a

/-- 45_stack_flag_misc.md R272 (all eight bits as stored is decision D3, log entry 12): PHP. -/
def Obligations.PushStatusVerbatim : Prop := ∀ s : State, Pushes .php s s.p

/-- 45_stack_flag_misc.md R273: PLA. -/
def Obligations.PullAccumulator : Prop :=
  ∀ s : State,
    WritesResult .pla s (byteAt s (stackAt (s.sp + 1)))
      (fun t => Regs t (byteAt s (stackAt (s.sp + 1))) s.x s.y (s.sp + 1))

/-- 45_stack_flag_misc.md R274 (bits 4 and 5 included: decision D2, log entries 11 and 12): PLP. -/
def Obligations.PullStatusVerbatim : Prop :=
  ∀ s : State, ∃ t, exec .plp s = .next t ∧ t.p = byteAt s (stackAt (s.sp + 1)) ∧ Regs t s.a s.x s.y (s.sp + 1) ∧
    Advanced s t 1 ∧ SameMemory s t ∧ SameLoop s t

/-- 45_stack_flag_misc.md R275 to R281 (the flag of each mnemonic is decision D23, log entry 16). -/
def Obligations.FlagInstructions : Prop :=
  WritesOneFlag .clc 0 false ∧ WritesOneFlag .sec 0 true ∧ WritesOneFlag .cli 2 false ∧ WritesOneFlag .sei 2 true ∧
  WritesOneFlag .cld 3 false ∧ WritesOneFlag .sed 3 true ∧ WritesOneFlag .clv 6 false

/-- 45_stack_flag_misc.md R282: NOP touches nothing but PC. -/
def Obligations.NopAdvancesOnly : Prop :=
  ∀ s : State, ∃ t, exec .nop s = .next t ∧ Advanced s t 1 ∧ { t with pc := s.pc } = s

/-- 45_stack_flag_misc.md R283 (decision D10, log entry 3): an undefined opcode is a 1-byte no-op with a diagnostic. -/
def Obligations.UndefinedEmitsDiagnostic : Prop :=
  ∀ (op : Byte) (s : State), ∃ t, exec (.undefined op) s = .next t ∧ t.diag = s.diag ++ [⟨s.pc, op⟩] ∧
    Advanced s t 1 ∧ { t with pc := s.pc, diag := s.diag } = s

/-! ## The host -/

/-- 46_execution_loop.md R303 (that only PC and the run state are written is decision D15, log entry 17; the run is
bounded by one step, log entry 22): a run begins with the instruction at the start address, on a core of which nothing
but PC and the run state was written. -/
def Obligations.StartRunsFromAddress : Prop :=
  ∀ (s : State) (addr : Word),
    { s.start addr with pc := s.pc, runState := s.runState } = s ∧
    ∃ u, exec (s.start addr).fetchInstr { s with pc := addr, runState := .running } = .next u ∧
      runFor 1 (s.start addr) = .next u.haltCheck

/-- 20_memory.md R79 (the wrap and the later byte winning are decision D16, log entry 17): `load` writes byte i at
(address + i) mod 65536, in order, and touches no register. -/
def Obligations.LoadPlacesImage : Prop :=
  ∀ (bytes : List Byte) (s : State) (addr : Word),
    { s.load addr bytes with mem := s.mem } = s ∧
    (∀ b : Byte, ∀ w : Word, (s.load addr (bytes ++ [b])).memRead w =
      if w.toNat = (addr.toNat + bytes.length) % 65536 then b else (s.load addr bytes).memRead w) ∧
    SameMemory s (s.load addr [])

/-- 20_memory.md R80: a host write, then a host read of the same address, gives the byte, and no register changes. -/
def Obligations.HostWriteThenRead : Prop :=
  ∀ (s : State) (addr : Word) (v : Byte), (s.hostWrite addr v).hostRead addr = v ∧
    { s.hostWrite addr v with mem := s.mem } = s

/-- 20_memory.md R77, 70_reset_and_hazards.md R367 (decision D20): a byte stored at the address of the next instruction
is the opcode of the next fetch. -/
def Obligations.StoredOpcodeIsFetchedNext : Prop :=
  ∀ (op : MemOperand) (s t : State), exec (.sta op) s = .next t → ea op s = t.pc →
    t.fetchInstr.opcode? = some s.a
end

