-- ==== Sys2Proof/Laws/Configured.lean ====
section
/-! SUPPORT. What a step and a run's loop do, over any execute phase; and the configured machine at the decided values
of 00_scope.md R10 is the machine. -/
namespace Sys2Proof.Machine

theorem stepBy_running {ex : Instr → State → Host.Outcome State Fault Refusal} {s : State}
    (h : s.runState = .running) : stepBy ex s = finishStep (ex s.fetchInstr s) := by
  simp only [stepBy, h]

theorem stepBy_halted {ex : Instr → State → Host.Outcome State Fault Refusal} {s : State}
    (h : s.runState = .halted) : stepBy ex s = .fault .halted := by
  simp only [stepBy, h]

/-- A halted core ends the loop where it stands (R303, R307). -/
theorem runBy_halted {st : State → Host.Outcome State Fault Refusal} {s : State} (n : Nat)
    (h : s.runState = .halted) : runBy st n s = .next s := by
  cases n with
  | zero => rfl
  | succ n => simp only [runBy, h]

/-- A running core's loop goes on from the next state of its step. -/
theorem runBy_next {st : State → Host.Outcome State Fault Refusal} {s t : State} (n : Nat)
    (h : s.runState = .running) (hs : st s = .next t) : runBy st (n + 1) s = runBy st n t := by
  simp only [runBy, h, hs]

/-- A refused step ends the loop with its refusal. -/
theorem runBy_refused {st : State → Host.Outcome State Fault Refusal} {s : State} {r : Refusal} (n : Nat)
    (h : s.runState = .running) (hs : st s = .refused r) : runBy st (n + 1) s = .refused r := by
  simp only [runBy, h, hs]

theorem execIn_decided : execIn decided = exec := by
  funext i s
  cases i <;> rfl

theorem stepIn_decided : stepIn decided = step := by
  funext s
  simp only [stepIn, execIn_decided, step]

theorem hostStepIn_decided : hostStepIn decided = hostStep := by
  funext s
  simp only [hostStepIn, stepIn_decided, hostStep]

theorem runForIn_decided : runForIn decided = runFor := by
  funext n s
  simp only [runForIn, stepIn_decided, runFor]

theorem coreIn_decided : coreIn decided = Sys2Proof.core := by
  simp only [coreIn, stepIn_decided, Sys2Proof.core]

end Sys2Proof.Machine
end

