-- ==== Sys2Proof/Laws/Flags.lean ====
section
/-! SUPPORT. The status byte: which bits each flag operation writes, said once for all flags. -/
namespace Sys2Proof.Machine

/-- Setting a flag sets the bits of its mask and no other (R40, R41). -/
theorem getLsbD_setFlag (p : Byte) (f : Flag) (k : Nat) :
    (setFlag p f).getLsbD k = (p.getLsbD k || (flagMask f).getLsbD k) := by
  simp [setFlag]

/-- Clearing a flag clears the bits of its mask and no other. -/
theorem getLsbD_clearFlag (p : Byte) (f : Flag) (k : Nat) :
    (clearFlag p f).getLsbD k = (p.getLsbD k && !(flagMask f).getLsbD k) := by
  by_cases h : k < 8
  · simp [clearFlag, h]
  · simp [clearFlag, h, BitVec.getLsbD_of_ge p k (by omega)]

/-- `P.f <- v` writes `v` to the bits of the mask and leaves every other bit. -/
theorem getLsbD_writeFlag (p : Byte) (f : Flag) (v : Bool) (k : Nat) :
    (writeFlag p f v).getLsbD k = if (flagMask f).getLsbD k then v else p.getLsbD k := by
  cases v <;> cases h : (flagMask f).getLsbD k <;>
    simp [writeFlag, getLsbD_setFlag, getLsbD_clearFlag, h]

/-- A flag is read by its own bit, which its mask holds. -/
theorem getLsbD_flagMask_flagBit (f : Flag) : (flagMask f).getLsbD (flagBit f) = true := by
  cases f <;> decide

/-- A written flag reads back (R41). -/
@[simp] theorem isSet_writeFlag (p : Byte) (f : Flag) (v : Bool) : isSet (writeFlag p f v) f = v := by
  simp [isSet, getLsbD_writeFlag, getLsbD_flagMask_flagBit]

/-- Writing a flag leaves every other flag as it reads. -/
theorem isSet_writeFlag_of_ne (p : Byte) (f g : Flag) (v : Bool) (h : g ≠ f) :
    isSet (writeFlag p f v) g = isSet p g := by
  have : (flagMask f).getLsbD (flagBit g) = false := by
    revert h; cases f <;> cases g <;> decide
  simp [isSet, getLsbD_writeFlag, this]

/-! ## Bit by bit

What each flag computation leaves in bit `k` of P, said once. -/

/-- Every flag but Break is one bit (R39). -/
theorem getLsbD_flagMask (f : Flag) (hf : f ≠ .breakField) (k : Nat) :
    (flagMask f).getLsbD k = decide (k = flagBit f) := by
  by_cases hk : k < 8
  · have h : ∀ j : Fin 8, (flagMask f).getLsbD j = decide (j.val = flagBit f) := by
      revert hf; cases f <;> decide
    exact h ⟨k, hk⟩
  · have h8 : flagBit f < 8 := by cases f <;> decide
    rw [BitVec.getLsbD_of_ge _ k (by omega), decide_eq_false (by omega)]

/-- The Break field is bits 4 and 5 (R40). -/
theorem getLsbD_flagMask_breakField (k : Nat) :
    (flagMask .breakField).getLsbD k = (decide (k = 4) || decide (k = 5)) := by
  by_cases hk : k < 8
  · have h : ∀ j : Fin 8, (flagMask .breakField).getLsbD j = (decide (j.val = 4) || decide (j.val = 5)) := by decide
    exact h ⟨k, hk⟩
  · rw [BitVec.getLsbD_of_ge _ k (by omega), decide_eq_false (by omega), decide_eq_false (by omega)]
    rfl

/-- `P.f <- v` for a one-bit flag, bit by bit. -/
theorem getLsbD_writeFlag_bit (p : Byte) (f : Flag) (hf : f ≠ .breakField) (v : Bool) (k : Nat) :
    (writeFlag p f v).getLsbD k = if k = flagBit f then v else p.getLsbD k := by
  rw [getLsbD_writeFlag, getLsbD_flagMask f hf]
  by_cases h : k = flagBit f <;> simp [h]

/-- SetZN, bit by bit (R41). -/
theorem getLsbD_withZN (p v : Byte) (k : Nat) :
    (withZN p v).getLsbD k = if k = 7 then v.getLsbD 7 else if k = 1 then v == 0 else p.getLsbD k := by
  rw [withZN, getLsbD_writeFlag_bit _ _ (by decide), getLsbD_writeFlag_bit _ _ (by decide)]
  rfl

/-- P after ADC or SBC, bit by bit (R180, R182). -/
theorem getLsbD_withSum (p : Byte) (s : Sum) (k : Nat) :
    (withSum p s).getLsbD k =
      if k = 7 then s.result.getLsbD 7 else if k = 1 then s.result == 0
      else if k = 6 then s.overflow else if k = 0 then s.carry else p.getLsbD k := by
  rw [withSum, getLsbD_withZN, getLsbD_writeFlag_bit _ _ (by decide), getLsbD_writeFlag_bit _ _ (by decide)]
  rfl

/-- P after a compare, bit by bit (R189). -/
theorem getLsbD_withCompare (p r m : Byte) (k : Nat) :
    (withCompare p r m).getLsbD k =
      if k = 7 then (r - m).getLsbD 7 else if k = 1 then r == m
      else if k = 0 then decide (m.toNat ≤ r.toNat) else p.getLsbD k := by
  rw [withCompare, getLsbD_writeFlag_bit _ _ (by decide), getLsbD_writeFlag_bit _ _ (by decide),
    getLsbD_writeFlag_bit _ _ (by decide)]
  rfl

/-- P after BIT, bit by bit (R188). -/
theorem getLsbD_withBitTest (p a m : Byte) (k : Nat) :
    (withBitTest p a m).getLsbD k =
      if k = 6 then m.getLsbD 6 else if k = 7 then m.getLsbD 7
      else if k = 1 then (a &&& m) == 0 else p.getLsbD k := by
  rw [withBitTest, getLsbD_writeFlag_bit _ _ (by decide), getLsbD_writeFlag_bit _ _ (by decide),
    getLsbD_writeFlag_bit _ _ (by decide)]
  rfl

/-- P after a shift or rotate, bit by bit (R220). -/
theorem getLsbD_withShift (p : Byte) (r : Shifted) (k : Nat) :
    (withShift p r).getLsbD k =
      if k = 7 then r.result.getLsbD 7 else if k = 1 then r.result == 0
      else if k = 0 then r.carry else p.getLsbD k := by
  rw [withShift, getLsbD_withZN, getLsbD_writeFlag_bit _ _ (by decide)]
  rfl

/-- Bit 7 of a byte is its being at least 128. -/
theorem getLsbD_seven (v : Byte) : v.getLsbD 7 = decide (128 ≤ v.toNat) := by
  have h := v.isLt
  rw [BitVec.getLsbD, Nat.testBit_eq_decide_div_mod_eq]
  congr 1
  apply propext
  omega

end Sys2Proof.Machine
end

