-- ==== Sys2Proof/Laws/State.lean ====
section
/-! SUPPORT. What each update of the state does to each field: one lemma a field, true by unfolding the update once. -/
namespace Sys2Proof.Machine

/-! setA -/

@[simp] theorem State.setA_pc (s : State) (v : Byte) : (s.setA v).pc = s.pc := rfl
@[simp] theorem State.setA_sp (s : State) (v : Byte) : (s.setA v).sp = s.sp := rfl
@[simp] theorem State.setA_a (s : State) (v : Byte) : (s.setA v).a = v := rfl
@[simp] theorem State.setA_x (s : State) (v : Byte) : (s.setA v).x = s.x := rfl
@[simp] theorem State.setA_y (s : State) (v : Byte) : (s.setA v).y = s.y := rfl
@[simp] theorem State.setA_p (s : State) (v : Byte) : (s.setA v).p = s.p := rfl
@[simp] theorem State.setA_runState (s : State) (v : Byte) : (s.setA v).runState = s.runState := rfl
@[simp] theorem State.setA_diag (s : State) (v : Byte) : (s.setA v).diag = s.diag := rfl
@[simp] theorem State.setA_mem (s : State) (v : Byte) : (s.setA v).mem = s.mem := rfl

/-! setX -/

@[simp] theorem State.setX_pc (s : State) (v : Byte) : (s.setX v).pc = s.pc := rfl
@[simp] theorem State.setX_sp (s : State) (v : Byte) : (s.setX v).sp = s.sp := rfl
@[simp] theorem State.setX_a (s : State) (v : Byte) : (s.setX v).a = s.a := rfl
@[simp] theorem State.setX_x (s : State) (v : Byte) : (s.setX v).x = v := rfl
@[simp] theorem State.setX_y (s : State) (v : Byte) : (s.setX v).y = s.y := rfl
@[simp] theorem State.setX_p (s : State) (v : Byte) : (s.setX v).p = s.p := rfl
@[simp] theorem State.setX_runState (s : State) (v : Byte) : (s.setX v).runState = s.runState := rfl
@[simp] theorem State.setX_diag (s : State) (v : Byte) : (s.setX v).diag = s.diag := rfl
@[simp] theorem State.setX_mem (s : State) (v : Byte) : (s.setX v).mem = s.mem := rfl

/-! setY -/

@[simp] theorem State.setY_pc (s : State) (v : Byte) : (s.setY v).pc = s.pc := rfl
@[simp] theorem State.setY_sp (s : State) (v : Byte) : (s.setY v).sp = s.sp := rfl
@[simp] theorem State.setY_a (s : State) (v : Byte) : (s.setY v).a = s.a := rfl
@[simp] theorem State.setY_x (s : State) (v : Byte) : (s.setY v).x = s.x := rfl
@[simp] theorem State.setY_y (s : State) (v : Byte) : (s.setY v).y = v := rfl
@[simp] theorem State.setY_p (s : State) (v : Byte) : (s.setY v).p = s.p := rfl
@[simp] theorem State.setY_runState (s : State) (v : Byte) : (s.setY v).runState = s.runState := rfl
@[simp] theorem State.setY_diag (s : State) (v : Byte) : (s.setY v).diag = s.diag := rfl
@[simp] theorem State.setY_mem (s : State) (v : Byte) : (s.setY v).mem = s.mem := rfl

/-! setSP -/

@[simp] theorem State.setSP_pc (s : State) (v : Byte) : (s.setSP v).pc = s.pc := rfl
@[simp] theorem State.setSP_sp (s : State) (v : Byte) : (s.setSP v).sp = v := rfl
@[simp] theorem State.setSP_a (s : State) (v : Byte) : (s.setSP v).a = s.a := rfl
@[simp] theorem State.setSP_x (s : State) (v : Byte) : (s.setSP v).x = s.x := rfl
@[simp] theorem State.setSP_y (s : State) (v : Byte) : (s.setSP v).y = s.y := rfl
@[simp] theorem State.setSP_p (s : State) (v : Byte) : (s.setSP v).p = s.p := rfl
@[simp] theorem State.setSP_runState (s : State) (v : Byte) : (s.setSP v).runState = s.runState := rfl
@[simp] theorem State.setSP_diag (s : State) (v : Byte) : (s.setSP v).diag = s.diag := rfl
@[simp] theorem State.setSP_mem (s : State) (v : Byte) : (s.setSP v).mem = s.mem := rfl

/-! setP -/

@[simp] theorem State.setP_pc (s : State) (v : Byte) : (s.setP v).pc = s.pc := rfl
@[simp] theorem State.setP_sp (s : State) (v : Byte) : (s.setP v).sp = s.sp := rfl
@[simp] theorem State.setP_a (s : State) (v : Byte) : (s.setP v).a = s.a := rfl
@[simp] theorem State.setP_x (s : State) (v : Byte) : (s.setP v).x = s.x := rfl
@[simp] theorem State.setP_y (s : State) (v : Byte) : (s.setP v).y = s.y := rfl
@[simp] theorem State.setP_p (s : State) (v : Byte) : (s.setP v).p = v := rfl
@[simp] theorem State.setP_runState (s : State) (v : Byte) : (s.setP v).runState = s.runState := rfl
@[simp] theorem State.setP_diag (s : State) (v : Byte) : (s.setP v).diag = s.diag := rfl
@[simp] theorem State.setP_mem (s : State) (v : Byte) : (s.setP v).mem = s.mem := rfl

/-! setPC -/

@[simp] theorem State.setPC_pc (s : State) (v : Word) : (s.setPC v).pc = v := rfl
@[simp] theorem State.setPC_sp (s : State) (v : Word) : (s.setPC v).sp = s.sp := rfl
@[simp] theorem State.setPC_a (s : State) (v : Word) : (s.setPC v).a = s.a := rfl
@[simp] theorem State.setPC_x (s : State) (v : Word) : (s.setPC v).x = s.x := rfl
@[simp] theorem State.setPC_y (s : State) (v : Word) : (s.setPC v).y = s.y := rfl
@[simp] theorem State.setPC_p (s : State) (v : Word) : (s.setPC v).p = s.p := rfl
@[simp] theorem State.setPC_runState (s : State) (v : Word) : (s.setPC v).runState = s.runState := rfl
@[simp] theorem State.setPC_diag (s : State) (v : Word) : (s.setPC v).diag = s.diag := rfl
@[simp] theorem State.setPC_mem (s : State) (v : Word) : (s.setPC v).mem = s.mem := rfl

/-! setZN -/

@[simp] theorem State.setZN_pc (s : State) (v : Byte) : (s.setZN v).pc = s.pc := rfl
@[simp] theorem State.setZN_sp (s : State) (v : Byte) : (s.setZN v).sp = s.sp := rfl
@[simp] theorem State.setZN_a (s : State) (v : Byte) : (s.setZN v).a = s.a := rfl
@[simp] theorem State.setZN_x (s : State) (v : Byte) : (s.setZN v).x = s.x := rfl
@[simp] theorem State.setZN_y (s : State) (v : Byte) : (s.setZN v).y = s.y := rfl
@[simp] theorem State.setZN_p (s : State) (v : Byte) : (s.setZN v).p = withZN s.p v := rfl
@[simp] theorem State.setZN_runState (s : State) (v : Byte) : (s.setZN v).runState = s.runState := rfl
@[simp] theorem State.setZN_diag (s : State) (v : Byte) : (s.setZN v).diag = s.diag := rfl
@[simp] theorem State.setZN_mem (s : State) (v : Byte) : (s.setZN v).mem = s.mem := rfl

/-! memWrite -/

@[simp] theorem State.memWrite_pc (s : State) (w : Word) (v : Byte) : (s.memWrite w v).pc = s.pc := rfl
@[simp] theorem State.memWrite_sp (s : State) (w : Word) (v : Byte) : (s.memWrite w v).sp = s.sp := rfl
@[simp] theorem State.memWrite_a (s : State) (w : Word) (v : Byte) : (s.memWrite w v).a = s.a := rfl
@[simp] theorem State.memWrite_x (s : State) (w : Word) (v : Byte) : (s.memWrite w v).x = s.x := rfl
@[simp] theorem State.memWrite_y (s : State) (w : Word) (v : Byte) : (s.memWrite w v).y = s.y := rfl
@[simp] theorem State.memWrite_p (s : State) (w : Word) (v : Byte) : (s.memWrite w v).p = s.p := rfl
@[simp] theorem State.memWrite_runState (s : State) (w : Word) (v : Byte) : (s.memWrite w v).runState = s.runState := rfl
@[simp] theorem State.memWrite_diag (s : State) (w : Word) (v : Byte) : (s.memWrite w v).diag = s.diag := rfl
@[simp] theorem State.memWrite_mem (s : State) (w : Word) (v : Byte) : (s.memWrite w v).mem = s.mem.write w.toNat v := rfl

/-! fetched -/

@[simp] theorem State.fetched_pc (s : State) (m : Mode) : (s.fetched m).pc = s.pc + 1 + BitVec.ofNat 16 m.width := rfl
@[simp] theorem State.fetched_sp (s : State) (m : Mode) : (s.fetched m).sp = s.sp := rfl
@[simp] theorem State.fetched_a (s : State) (m : Mode) : (s.fetched m).a = s.a := rfl
@[simp] theorem State.fetched_x (s : State) (m : Mode) : (s.fetched m).x = s.x := rfl
@[simp] theorem State.fetched_y (s : State) (m : Mode) : (s.fetched m).y = s.y := rfl
@[simp] theorem State.fetched_p (s : State) (m : Mode) : (s.fetched m).p = s.p := rfl
@[simp] theorem State.fetched_runState (s : State) (m : Mode) : (s.fetched m).runState = s.runState := rfl
@[simp] theorem State.fetched_diag (s : State) (m : Mode) : (s.fetched m).diag = s.diag := rfl
@[simp] theorem State.fetched_mem (s : State) (m : Mode) : (s.fetched m).mem = s.mem := rfl

/-! push -/

@[simp] theorem State.push_pc (s : State) (v : Byte) : (s.push v).pc = s.pc := rfl
@[simp] theorem State.push_sp (s : State) (v : Byte) : (s.push v).sp = s.sp - 1 := rfl
@[simp] theorem State.push_a (s : State) (v : Byte) : (s.push v).a = s.a := rfl
@[simp] theorem State.push_x (s : State) (v : Byte) : (s.push v).x = s.x := rfl
@[simp] theorem State.push_y (s : State) (v : Byte) : (s.push v).y = s.y := rfl
@[simp] theorem State.push_p (s : State) (v : Byte) : (s.push v).p = s.p := rfl
@[simp] theorem State.push_runState (s : State) (v : Byte) : (s.push v).runState = s.runState := rfl
@[simp] theorem State.push_diag (s : State) (v : Byte) : (s.push v).diag = s.diag := rfl
@[simp] theorem State.push_mem (s : State) (v : Byte) : (s.push v).mem = s.mem.write (stackAddr s.sp).toNat v := rfl

/-! pulled -/

@[simp] theorem State.pulled_pc (s : State) : (s.pulled).pc = s.pc := rfl
@[simp] theorem State.pulled_sp (s : State) : (s.pulled).sp = s.sp + 1 := rfl
@[simp] theorem State.pulled_a (s : State) : (s.pulled).a = s.a := rfl
@[simp] theorem State.pulled_x (s : State) : (s.pulled).x = s.x := rfl
@[simp] theorem State.pulled_y (s : State) : (s.pulled).y = s.y := rfl
@[simp] theorem State.pulled_p (s : State) : (s.pulled).p = s.p := rfl
@[simp] theorem State.pulled_runState (s : State) : (s.pulled).runState = s.runState := rfl
@[simp] theorem State.pulled_diag (s : State) : (s.pulled).diag = s.diag := rfl
@[simp] theorem State.pulled_mem (s : State) : (s.pulled).mem = s.mem := rfl

/-! emit -/

@[simp] theorem State.emit_pc (s : State) (w : Word) (op : Byte) : (s.emit w op).pc = s.pc := rfl
@[simp] theorem State.emit_sp (s : State) (w : Word) (op : Byte) : (s.emit w op).sp = s.sp := rfl
@[simp] theorem State.emit_a (s : State) (w : Word) (op : Byte) : (s.emit w op).a = s.a := rfl
@[simp] theorem State.emit_x (s : State) (w : Word) (op : Byte) : (s.emit w op).x = s.x := rfl
@[simp] theorem State.emit_y (s : State) (w : Word) (op : Byte) : (s.emit w op).y = s.y := rfl
@[simp] theorem State.emit_p (s : State) (w : Word) (op : Byte) : (s.emit w op).p = s.p := rfl
@[simp] theorem State.emit_runState (s : State) (w : Word) (op : Byte) : (s.emit w op).runState = s.runState := rfl
@[simp] theorem State.emit_diag (s : State) (w : Word) (op : Byte) : (s.emit w op).diag = s.diag ++ [⟨w, op⟩] := rfl
@[simp] theorem State.emit_mem (s : State) (w : Word) (op : Byte) : (s.emit w op).mem = s.mem := rfl

/-! start -/

@[simp] theorem State.start_pc (s : State) (w : Word) : (s.start w).pc = w := rfl
@[simp] theorem State.start_sp (s : State) (w : Word) : (s.start w).sp = s.sp := rfl
@[simp] theorem State.start_a (s : State) (w : Word) : (s.start w).a = s.a := rfl
@[simp] theorem State.start_x (s : State) (w : Word) : (s.start w).x = s.x := rfl
@[simp] theorem State.start_y (s : State) (w : Word) : (s.start w).y = s.y := rfl
@[simp] theorem State.start_p (s : State) (w : Word) : (s.start w).p = s.p := rfl
@[simp] theorem State.start_runState (s : State) (w : Word) : (s.start w).runState = .running := rfl
@[simp] theorem State.start_diag (s : State) (w : Word) : (s.start w).diag = s.diag := rfl
@[simp] theorem State.start_mem (s : State) (w : Word) : (s.start w).mem = s.mem := rfl

/-! returnFromInterrupt -/

@[simp] theorem State.returnFromInterrupt_pc (s : State) : (s.returnFromInterrupt).pc = join s.pulled.pulled.pullByte s.pulled.pullByte := rfl
@[simp] theorem State.returnFromInterrupt_sp (s : State) : (s.returnFromInterrupt).sp = s.sp + 1 + 1 + 1 := rfl
@[simp] theorem State.returnFromInterrupt_a (s : State) : (s.returnFromInterrupt).a = s.a := rfl
@[simp] theorem State.returnFromInterrupt_x (s : State) : (s.returnFromInterrupt).x = s.x := rfl
@[simp] theorem State.returnFromInterrupt_y (s : State) : (s.returnFromInterrupt).y = s.y := rfl
@[simp] theorem State.returnFromInterrupt_p (s : State) : (s.returnFromInterrupt).p = s.pullByte := rfl
@[simp] theorem State.returnFromInterrupt_runState (s : State) : (s.returnFromInterrupt).runState = s.runState := rfl
@[simp] theorem State.returnFromInterrupt_diag (s : State) : (s.returnFromInterrupt).diag = s.diag := rfl
@[simp] theorem State.returnFromInterrupt_mem (s : State) : (s.returnFromInterrupt).mem = s.mem := rfl

end Sys2Proof.Machine
end

