-- ==== Sys2Proof/Laws/Memory.lean ====
section
/-! SUPPORT. Memory: a write is read back and leaves every other byte alone, and every memory operation keeps the
canonical form. -/
namespace Sys2Proof.Machine

theorem Memory.read_erase (m : Memory) (k j : Nat) :
    Memory.read (Memory.erase m k) j = if j = k then unlistedByte else Memory.read m j := by
  induction m with
  | nil => simp [Memory.erase, Memory.read]
  | cons c m ih =>
    obtain ⟨a, v⟩ := c
    by_cases hak : a = k
    · subst hak
      have : Memory.erase ((a, v) :: m) a = Memory.erase m a := by simp [Memory.erase]
      rw [this, ih]
      by_cases h : j = a
      · simp [h]
      · simp [h, Memory.read, Ne.symm h]
    · have : Memory.erase ((a, v) :: m) k = (a, v) :: Memory.erase m k := by simp [Memory.erase, hak]
      rw [this]
      by_cases h : a = j
      · subst h; simp [Memory.read, hak]
      · simp [Memory.read, h, ih]

theorem Memory.read_insert (m : Memory) (k j : Nat) (v : Byte) :
    Memory.read (Memory.insert m k v) j = if j = k then v else Memory.read m j := by
  induction m with
  | nil =>
    by_cases h : k = j
    · simp [Memory.insert, Memory.read, h]
    · simp [Memory.insert, Memory.read, h, Ne.symm h]
  | cons c m ih =>
    obtain ⟨a, u⟩ := c
    unfold Memory.insert
    split
    · by_cases h : k = j
      · simp [Memory.read, h]
      · simp [Memory.read, h, Ne.symm h]
    split
    · rename_i h; subst h
      by_cases h : k = j
      · simp [Memory.read, h]
      · simp [Memory.read, h, Ne.symm h]
    · rename_i hk
      by_cases h : a = j
      · subst h; simp [Memory.read, Ne.symm hk]
      · simp [Memory.read, h, ih]

/-- Reading after writing: the written byte at its address, the old byte elsewhere (R61). -/
theorem Memory.read_write (m : Memory) (k j : Nat) (v : Byte) :
    (m.write k v).read j = if j = k then v else m.read j := by
  unfold Memory.write
  split
  · rename_i h; rw [h, Memory.read_erase]
  · exact Memory.read_insert m k j v

theorem Memory.wfFrom_mono {lo lo' : Nat} {m : Memory} (h : lo' ≤ lo) (hm : Memory.wfFrom lo m = true) :
    Memory.wfFrom lo' m = true := by
  cases m with
  | nil => rfl
  | cons c m =>
    simp only [Memory.wfFrom, Bool.and_eq_true, decide_eq_true_eq] at hm ⊢
    exact ⟨⟨⟨by omega, hm.1.1.2⟩, hm.1.2⟩, hm.2⟩

theorem Memory.wfFrom_erase {lo : Nat} {m : Memory} (k : Nat) (hm : Memory.wfFrom lo m = true) :
    Memory.wfFrom lo (Memory.erase m k) = true := by
  induction m generalizing lo with
  | nil => rfl
  | cons c m ih =>
    obtain ⟨a, v⟩ := c
    simp only [Memory.wfFrom, Bool.and_eq_true, decide_eq_true_eq] at hm
    have hm' := ih hm.2
    by_cases h : a = k
    · have : Memory.erase ((a, v) :: m) k = Memory.erase m k := by simp [Memory.erase, h]
      rw [this]
      exact Memory.wfFrom_mono (by omega) hm'
    · have : Memory.erase ((a, v) :: m) k = (a, v) :: Memory.erase m k := by simp [Memory.erase, h]
      rw [this]
      simp only [Memory.wfFrom, Bool.and_eq_true, decide_eq_true_eq]
      exact ⟨hm.1, hm'⟩

theorem Memory.wfFrom_insert {lo : Nat} {m : Memory} {k : Nat} {v : Byte} (hlo : lo ≤ k) (hk : k < 65536)
    (hv : v ≠ unlistedByte) (hm : Memory.wfFrom lo m = true) : Memory.wfFrom lo (Memory.insert m k v) = true := by
  induction m generalizing lo with
  | nil => simp [Memory.insert, Memory.wfFrom, hlo, hk, hv]
  | cons c m ih =>
    obtain ⟨a, u⟩ := c
    simp only [Memory.wfFrom, Bool.and_eq_true, decide_eq_true_eq] at hm
    unfold Memory.insert
    split
    · simp only [Memory.wfFrom, Bool.and_eq_true, decide_eq_true_eq]
      exact ⟨⟨⟨hlo, hk⟩, by simpa using hv⟩, ⟨⟨by omega, hm.1.1.2⟩, hm.1.2⟩, hm.2⟩
    split
    · rename_i h; subst h
      simp only [Memory.wfFrom, Bool.and_eq_true, decide_eq_true_eq]
      exact ⟨⟨⟨hlo, hk⟩, by simpa using hv⟩, hm.2⟩
    · simp only [Memory.wfFrom, Bool.and_eq_true, decide_eq_true_eq]
      exact ⟨hm.1, ih (by omega) hm.2⟩

/-- Writing a byte at an address of the space keeps the canonical form. -/
theorem Memory.wf_write {m : Memory} {k : Nat} (hk : k < 65536) (v : Byte) (hm : m.wf = true) :
    (m.write k v).wf = true := by
  unfold Memory.write
  split
  · exact Memory.wfFrom_erase k hm
  · rename_i h
    exact Memory.wfFrom_insert (Nat.zero_le k) hk h hm

/-- The bus write on the state: one byte changes (R61, R63). -/
@[simp] theorem State.memRead_memWrite (s : State) (w : Word) (v : Byte) (b : Word) :
    (s.memWrite w v).memRead b = if b = w then v else s.memRead b := by
  simp only [State.memRead, State.memWrite_mem, Memory.read_write]
  simp only [BitVec.toNat_inj]

/-- `MemWrite` keeps the canonical form. -/
theorem State.wf_memWrite {s : State} (w : Word) (v : Byte) (h : s.mem.wf = true) :
    (s.memWrite w v).mem.wf = true := Memory.wf_write w.isLt v h

/-- `Push` keeps the canonical form. -/
theorem State.wf_push {s : State} (v : Byte) (h : s.mem.wf = true) : (s.push v).mem.wf = true :=
  Memory.wf_write (stackAddr s.sp).isLt v h

/-- `load` keeps the canonical form. -/
theorem State.wf_loadBytes (bytes : List Byte) (s : State) (w : Word) (h : s.mem.wf = true) :
    (s.loadBytes w bytes).mem.wf = true := by
  induction bytes generalizing s w with
  | nil => exact h
  | cons b bs ih => exact ih _ _ (State.wf_memWrite w b h)

/-- A state's reads depend on its memory alone. -/
theorem State.memRead_congr {s t : State} (h : t.mem = s.mem) (w : Word) : t.memRead w = s.memRead w := by
  simp [State.memRead, h]

end Sys2Proof.Machine
end

