-- ==== Sys2Proof/Laws/Ops.lean ====
section
/-! SUPPORT. One lemma for each shared operation, saying everything it can do: the later proofs cite these and unfold
no operation again. -/
namespace Sys2Proof.Machine

/-! ## Bytes and words -/

theorem toNat_join (h l : Byte) : (join h l).toNat = h.toNat * 256 + l.toNat := by
  rw [join, BitVec.toNat_append, Nat.shiftLeft_eq, Nat.mul_comm,
    ← Nat.two_pow_add_eq_or_of_lt (by simpa using l.isLt)]

theorem toNat_hiByte (w : Word) : (hiByte w).toNat = w.toNat / 256 := by
  have := w.isLt
  simp only [hiByte, BitVec.extractLsb'_toNat, Nat.shiftRight_eq_div_pow]
  omega

theorem toNat_loByte (w : Word) : (loByte w).toNat = w.toNat % 256 := by
  simp [loByte, BitVec.extractLsb'_toNat]

@[simp] theorem hiByte_join (h l : Byte) : hiByte (join h l) = h := by
  have := l.isLt
  apply BitVec.eq_of_toNat_eq
  rw [toNat_hiByte, toNat_join]
  omega

@[simp] theorem loByte_join (h l : Byte) : loByte (join h l) = l := by
  have := l.isLt
  apply BitVec.eq_of_toNat_eq
  rw [toNat_loByte, toNat_join]
  omega

@[simp] theorem join_hiByte_loByte (w : Word) : join (hiByte w) (loByte w) = w := by
  apply BitVec.eq_of_toNat_eq
  rw [toNat_join, toNat_hiByte, toNat_loByte]
  omega

/-! ## The stack -/

theorem toNat_stackAddr (sp : Byte) : (stackAddr sp).toNat = 256 + sp.toNat := by
  have := sp.isLt
  simp [stackAddr, zext16, BitVec.toNat_add, BitVec.toNat_setWidth]
  omega

theorem stackAddr_inj {u v : Byte} (h : stackAddr u = stackAddr v) : u = v := by
  have := congrArg BitVec.toNat h
  rw [toNat_stackAddr, toNat_stackAddr] at this
  exact BitVec.eq_of_toNat_eq (by omega)

/-- An address is the stack address of SP exactly when it is that many bytes into page 1 (R68). -/
theorem eq_stackAddr_iff (w : Word) (sp : Byte) : w = stackAddr sp ↔ w.toNat = 256 + sp.toNat := by
  rw [← BitVec.toNat_inj, toNat_stackAddr]

/-- `Push` writes one byte, at the stack address of the old SP (R70). -/
theorem State.memRead_push (s : State) (v : Byte) (w : Word) :
    (s.push v).memRead w = if w = stackAddr s.sp then v else s.memRead w := by
  rw [← State.memRead_memWrite]; rfl

/-! ## The execution loop -/

@[simp] theorem State.haltCheck_pc (s : State) : s.haltCheck.pc = s.pc := by unfold State.haltCheck; split <;> rfl
@[simp] theorem State.haltCheck_sp (s : State) : s.haltCheck.sp = s.sp := by unfold State.haltCheck; split <;> rfl
@[simp] theorem State.haltCheck_a (s : State) : s.haltCheck.a = s.a := by unfold State.haltCheck; split <;> rfl
@[simp] theorem State.haltCheck_x (s : State) : s.haltCheck.x = s.x := by unfold State.haltCheck; split <;> rfl
@[simp] theorem State.haltCheck_y (s : State) : s.haltCheck.y = s.y := by unfold State.haltCheck; split <;> rfl
@[simp] theorem State.haltCheck_p (s : State) : s.haltCheck.p = s.p := by unfold State.haltCheck; split <;> rfl
@[simp] theorem State.haltCheck_diag (s : State) : s.haltCheck.diag = s.diag := by
  unfold State.haltCheck; split <;> rfl
@[simp] theorem State.haltCheck_mem (s : State) : s.haltCheck.mem = s.mem := by
  unfold State.haltCheck; split <;> rfl

/-- The halt check writes Halted where Break is set, and nothing else (R306). -/
theorem State.haltCheck_runState (s : State) :
    s.haltCheck.runState = if isSet s.p .breakField then .halted else s.runState := by
  unfold State.haltCheck; split <;> rfl

/-- A step that answers a next state: the core was running, and the state is the one `exec` left, after the halt
check (R301). -/
theorem step_inv {s t : State} (h : step s = .next t) :
    s.runState = .running ∧ ∃ u, exec s.fetchInstr s = .next u ∧ t = u.haltCheck := by
  unfold step stepBy at h
  split at h
  · rename_i hr
    refine ⟨hr, ?_⟩
    cases he : exec s.fetchInstr s with
    | next u =>
      rw [he] at h
      exact ⟨u, rfl, by simpa [finishStep] using h.symm⟩
    | fault r => rw [he] at h; simp [finishStep] at h
    | refused r => rw [he] at h; simp [finishStep] at h
  · simp at h

/-! ## Shared meanings -/

/-- ADC and SBC under the decided policy never refuse (D11). -/
theorem addToA_decided (mode : Mode) (b : Byte) (s : State) :
    addToA decided mode b s =
      .next (((s.fetched mode).setA (addWithCarry s.a b (isSet s.p .carry)).result).setP
        (withSum s.p (addWithCarry s.a b (isSet s.p .carry)))) := by
  simp [addToA, decided]

/-- A branch moves PC and nothing else (R240). -/
theorem branchIf_eq (taken : Bool) (disp : Byte) (s : State) :
    branchIf taken disp s = s.setPC (if taken then branchTarget disp s else s.pc + 2) := by
  cases taken with
  | true => rfl
  | false =>
    have : s.pc + 1 + BitVec.ofNat 16 1 = s.pc + 2 := BitVec.add_assoc s.pc 1 1
    simp only [branchIf, State.fetched, Mode.width, this, Bool.false_eq_true, if_false]

/-- INC and DEC write one byte, at the effective address in the state they began with (R193, R194). -/
theorem memRead_storeResult (op : MemOperand) (r : Byte) (s : State) (w : Word) :
    (storeResult op r s).memRead w = if w = ea op s then r else s.memRead w :=
  State.memRead_memWrite (s.fetched op.mode) (ea op s) r w

/-- A shift or rotate of memory writes its result there, and one of A writes no byte (R220). -/
theorem memRead_shiftWith (f : Byte → Bool → Shifted) (op : ShiftOperand) (s : State) (w : Word) :
    (shiftWith f op s).memRead w =
      match op with
      | .accumulator => s.memRead w
      | .mem m =>
        if w = ea m s then (f (s.memRead (ea m s)) (isSet s.p .carry)).result else s.memRead w := by
  cases op with
  | accumulator => rfl
  | mem m => exact State.memRead_memWrite (s.fetched m.mode) (ea m s) _ w

/-- Storing a shift's result writes A or one byte of memory (R220). -/
theorem storeTarget_eq (op : ShiftOperand) (s0 : State) (r : Byte) (s : State) :
    storeTarget op s0 r s =
      match op with
      | .accumulator => s.setA r
      | .mem m => s.memWrite (ea m s0) r := by
  cases op <;> rfl

/-- An undefined opcode under the decided policy appends its diagnostic and passes its byte (R283). -/
theorem undefinedIn_decided (op : Byte) (s : State) :
    undefinedIn decided op s = .next ((s.fetched .invalid).emit s.pc op) := rfl

end Sys2Proof.Machine
end

