-- ==== Sys2Proof/Laws/PerInstr.lean ====
section
/-! SUPPORT. Statements made per instruction, as syntax: a well-formed instruction has an opcode byte, and with it its
operand bytes are as many as its length, one to three (30_encoding.md R91, R93). -/
namespace Sys2Proof.Laws.Encoding

/-- A well-formed instruction encodes in `Instr.length` bytes, of which there are one to three. -/
def Statement (i : Instr) : Prop :=
  i.wellFormed = true → ∃ op, i.opcode? = some op ∧ (op :: i.operandBytes).length = i.length ∧ i.length ≤ 3

/-- No instruction is longer than three bytes (R91). -/
theorem length_le_three (i : Instr) : i.length ≤ 3 := by
  unfold Instr.length
  cases i.mode <;> decide

theorem lda (op : ReadOperand) : Statement (.lda op) := by
  intro h
  rcases op with _ | m
  · exact ⟨_, rfl, rfl, length_le_three _⟩
  · cases m <;> first | exact ⟨_, rfl, rfl, length_le_three _⟩ | exact nomatch h

theorem ldx (op : ReadOperand) : Statement (.ldx op) := by
  intro h
  rcases op with _ | m
  · exact ⟨_, rfl, rfl, length_le_three _⟩
  · cases m <;> first | exact ⟨_, rfl, rfl, length_le_three _⟩ | exact nomatch h

theorem ldy (op : ReadOperand) : Statement (.ldy op) := by
  intro h
  rcases op with _ | m
  · exact ⟨_, rfl, rfl, length_le_three _⟩
  · cases m <;> first | exact ⟨_, rfl, rfl, length_le_three _⟩ | exact nomatch h

theorem sta (op : MemOperand) : Statement (.sta op) := by
  intro h
  cases op <;> first | exact ⟨_, rfl, rfl, length_le_three _⟩ | exact nomatch h

theorem stx (op : MemOperand) : Statement (.stx op) := by
  intro h
  cases op <;> first | exact ⟨_, rfl, rfl, length_le_three _⟩ | exact nomatch h

theorem sty (op : MemOperand) : Statement (.sty op) := by
  intro h
  cases op <;> first | exact ⟨_, rfl, rfl, length_le_three _⟩ | exact nomatch h

theorem tax : Statement .tax := fun _ => ⟨_, rfl, rfl, length_le_three _⟩

theorem tay : Statement .tay := fun _ => ⟨_, rfl, rfl, length_le_three _⟩

theorem txa : Statement .txa := fun _ => ⟨_, rfl, rfl, length_le_three _⟩

theorem tya : Statement .tya := fun _ => ⟨_, rfl, rfl, length_le_three _⟩

theorem tsx : Statement .tsx := fun _ => ⟨_, rfl, rfl, length_le_three _⟩

theorem txs : Statement .txs := fun _ => ⟨_, rfl, rfl, length_le_three _⟩

theorem adc (op : ReadOperand) : Statement (.adc op) := by
  intro h
  rcases op with _ | m
  · exact ⟨_, rfl, rfl, length_le_three _⟩
  · cases m <;> first | exact ⟨_, rfl, rfl, length_le_three _⟩ | exact nomatch h

theorem sbc (op : ReadOperand) : Statement (.sbc op) := by
  intro h
  rcases op with _ | m
  · exact ⟨_, rfl, rfl, length_le_three _⟩
  · cases m <;> first | exact ⟨_, rfl, rfl, length_le_three _⟩ | exact nomatch h

theorem and (op : ReadOperand) : Statement (.and op) := by
  intro h
  rcases op with _ | m
  · exact ⟨_, rfl, rfl, length_le_three _⟩
  · cases m <;> first | exact ⟨_, rfl, rfl, length_le_three _⟩ | exact nomatch h

theorem ora (op : ReadOperand) : Statement (.ora op) := by
  intro h
  rcases op with _ | m
  · exact ⟨_, rfl, rfl, length_le_three _⟩
  · cases m <;> first | exact ⟨_, rfl, rfl, length_le_three _⟩ | exact nomatch h

theorem eor (op : ReadOperand) : Statement (.eor op) := by
  intro h
  rcases op with _ | m
  · exact ⟨_, rfl, rfl, length_le_three _⟩
  · cases m <;> first | exact ⟨_, rfl, rfl, length_le_three _⟩ | exact nomatch h

theorem bit (op : MemOperand) : Statement (.bit op) := by
  intro h
  cases op <;> first | exact ⟨_, rfl, rfl, length_le_three _⟩ | exact nomatch h

theorem cmp (op : ReadOperand) : Statement (.cmp op) := by
  intro h
  rcases op with _ | m
  · exact ⟨_, rfl, rfl, length_le_three _⟩
  · cases m <;> first | exact ⟨_, rfl, rfl, length_le_three _⟩ | exact nomatch h

theorem cpx (op : ReadOperand) : Statement (.cpx op) := by
  intro h
  rcases op with _ | m
  · exact ⟨_, rfl, rfl, length_le_three _⟩
  · cases m <;> first | exact ⟨_, rfl, rfl, length_le_three _⟩ | exact nomatch h

theorem cpy (op : ReadOperand) : Statement (.cpy op) := by
  intro h
  rcases op with _ | m
  · exact ⟨_, rfl, rfl, length_le_three _⟩
  · cases m <;> first | exact ⟨_, rfl, rfl, length_le_three _⟩ | exact nomatch h

theorem inc (op : MemOperand) : Statement (.inc op) := by
  intro h
  cases op <;> first | exact ⟨_, rfl, rfl, length_le_three _⟩ | exact nomatch h

theorem dec (op : MemOperand) : Statement (.dec op) := by
  intro h
  cases op <;> first | exact ⟨_, rfl, rfl, length_le_three _⟩ | exact nomatch h

theorem inx : Statement .inx := fun _ => ⟨_, rfl, rfl, length_le_three _⟩

theorem iny : Statement .iny := fun _ => ⟨_, rfl, rfl, length_le_three _⟩

theorem dex : Statement .dex := fun _ => ⟨_, rfl, rfl, length_le_three _⟩

theorem dey : Statement .dey := fun _ => ⟨_, rfl, rfl, length_le_three _⟩

theorem asl (op : ShiftOperand) : Statement (.asl op) := by
  intro h
  rcases op with _ | m
  · exact ⟨_, rfl, rfl, length_le_three _⟩
  · cases m <;> first | exact ⟨_, rfl, rfl, length_le_three _⟩ | exact nomatch h

theorem lsr (op : ShiftOperand) : Statement (.lsr op) := by
  intro h
  rcases op with _ | m
  · exact ⟨_, rfl, rfl, length_le_three _⟩
  · cases m <;> first | exact ⟨_, rfl, rfl, length_le_three _⟩ | exact nomatch h

theorem rol (op : ShiftOperand) : Statement (.rol op) := by
  intro h
  rcases op with _ | m
  · exact ⟨_, rfl, rfl, length_le_three _⟩
  · cases m <;> first | exact ⟨_, rfl, rfl, length_le_three _⟩ | exact nomatch h

theorem ror (op : ShiftOperand) : Statement (.ror op) := by
  intro h
  rcases op with _ | m
  · exact ⟨_, rfl, rfl, length_le_three _⟩
  · cases m <;> first | exact ⟨_, rfl, rfl, length_le_three _⟩ | exact nomatch h

theorem bpl (disp : Byte) : Statement (.bpl disp) := fun _ => ⟨_, rfl, rfl, length_le_three _⟩

theorem bmi (disp : Byte) : Statement (.bmi disp) := fun _ => ⟨_, rfl, rfl, length_le_three _⟩

theorem bvc (disp : Byte) : Statement (.bvc disp) := fun _ => ⟨_, rfl, rfl, length_le_three _⟩

theorem bvs (disp : Byte) : Statement (.bvs disp) := fun _ => ⟨_, rfl, rfl, length_le_three _⟩

theorem bcc (disp : Byte) : Statement (.bcc disp) := fun _ => ⟨_, rfl, rfl, length_le_three _⟩

theorem bcs (disp : Byte) : Statement (.bcs disp) := fun _ => ⟨_, rfl, rfl, length_le_three _⟩

theorem bne (disp : Byte) : Statement (.bne disp) := fun _ => ⟨_, rfl, rfl, length_le_three _⟩

theorem beq (disp : Byte) : Statement (.beq disp) := fun _ => ⟨_, rfl, rfl, length_le_three _⟩

theorem jmp (op : JumpOperand) : Statement (.jmp op) := by
  intro h
  cases op <;> exact ⟨_, rfl, rfl, length_le_three _⟩

theorem jsr (addr : Word) : Statement (.jsr addr) := fun _ => ⟨_, rfl, rfl, length_le_three _⟩

theorem rts : Statement .rts := fun _ => ⟨_, rfl, rfl, length_le_three _⟩

theorem brk : Statement .brk := fun _ => ⟨_, rfl, rfl, length_le_three _⟩

theorem rti : Statement .rti := fun _ => ⟨_, rfl, rfl, length_le_three _⟩

theorem pha : Statement .pha := fun _ => ⟨_, rfl, rfl, length_le_three _⟩

theorem php : Statement .php := fun _ => ⟨_, rfl, rfl, length_le_three _⟩

theorem pla : Statement .pla := fun _ => ⟨_, rfl, rfl, length_le_three _⟩

theorem plp : Statement .plp := fun _ => ⟨_, rfl, rfl, length_le_three _⟩

theorem clc : Statement .clc := fun _ => ⟨_, rfl, rfl, length_le_three _⟩

theorem sec : Statement .sec := fun _ => ⟨_, rfl, rfl, length_le_three _⟩

theorem cli : Statement .cli := fun _ => ⟨_, rfl, rfl, length_le_three _⟩

theorem sei : Statement .sei := fun _ => ⟨_, rfl, rfl, length_le_three _⟩

theorem cld : Statement .cld := fun _ => ⟨_, rfl, rfl, length_le_three _⟩

theorem sed : Statement .sed := fun _ => ⟨_, rfl, rfl, length_le_three _⟩

theorem clv : Statement .clv := fun _ => ⟨_, rfl, rfl, length_le_three _⟩

theorem nop : Statement .nop := fun _ => ⟨_, rfl, rfl, length_le_three _⟩

theorem undefined (op : Byte) : Statement (.undefined op) := by
  intro h
  have h' : undefinedOpcodes.contains op = true := by
    simpa only [Instr.wellFormed, Instr.forms, Instr.mode, Instr.byteAllowed, List.contains_cons,
      List.contains_nil, beq_self_eq_true, Bool.true_or, Bool.true_and] using h
  exact ⟨op, by simp only [Instr.opcode?, h', if_true], rfl, length_le_three _⟩

end Sys2Proof.Laws.Encoding
end

