-- ==== Sys2Proof/Tests/Slice0.lean ====
section
/-! SUPPORT. The model's own tests: the well-formedness checks, words decoded, one step on small states with the
results of spec/95_test_vectors.md, the host's calls, and a witness for the hypotheses of every statement that has
some. -/
namespace Sys2Proof.Tests

open Sys2Proof.Machine Sys2Proof.Claims

/-- A running core with `bytes` at PC, these registers, and these cells written after. -/
def cpu (pc : Word) (bytes : List Byte) (a x y sp p : Byte) (cells : List (Word × Byte)) : State :=
  cells.foldl (fun s c => s.memWrite c.1 c.2)
    (State.loadBytes { pc, sp, a, x, y, p, runState := .running, diag := [], mem := [] } pc bytes)

/-- The next state of an outcome. -/
def next? : Host.Outcome State Fault Refusal → Option State
  | .next t => some t
  | .fault _ => none
  | .refused _ => none

/-- The state after one step. -/
def after (s : State) : Option State := next? (step s)

/-- What a vector of spec/95_test_vectors.md gives of a state. -/
structure Registers where
  pc : Word
  a : Byte
  x : Byte
  y : Byte
  sp : Byte
  p : Byte
  runState : RunState
  deriving DecidableEq, Repr

def registers (s : State) : Registers := ⟨s.pc, s.a, s.x, s.y, s.sp, s.p, s.runState⟩

/-! ## Well-formedness: a term each check refuses, beside one it lets pass (R97, R98) -/

theorem test_wf_store_has_no_zeroPageY :
    (Instr.sta (.zeroPageY 0x10)).wellFormed = false ∧ (Instr.sta (.zeroPageX 0x10)).wellFormed = true := by decide

theorem test_wf_stx_has_no_absoluteX :
    (Instr.stx (.absoluteX 0x1234)).wellFormed = false ∧ (Instr.stx (.zeroPageY 0x10)).wellFormed = true := by decide

theorem test_wf_compare_of_x_has_no_index :
    (Instr.cpx (.mem (.zeroPageX 0x10))).wellFormed = false ∧ (Instr.cpx (.immediate 0)).wellFormed = true := by decide

theorem test_wf_bit_has_no_index :
    (Instr.bit (.absoluteX 0x1234)).wellFormed = false ∧ (Instr.bit (.absolute 0x1234)).wellFormed = true := by decide

theorem test_wf_shift_has_no_pointer :
    (Instr.asl (.mem (.indirectY 0x10))).wellFormed = false ∧ (Instr.asl .accumulator).wellFormed = true := by decide

theorem test_wf_undefined_byte :
    (Instr.undefined 0xA9).wellFormed = false ∧ (Instr.undefined 0x02).wellFormed = true := by decide

/-! ## Words decoded: each constructor, its opcode byte read off the map of R96 and its operand bytes laid out by R91 -/

theorem test_decode_loads_stores :
    decode [0xB1, 0x20] = .ok (.lda (.mem (.indirectY 0x20)), []) ∧
    decode [0xBE, 0x34, 0x12] = .ok (.ldx (.mem (.absoluteY 0x1234)), []) ∧
    decode [0xBC, 0x34, 0x12] = .ok (.ldy (.mem (.absoluteX 0x1234)), []) ∧
    decode [0x99, 0x34, 0x12] = .ok (.sta (.absoluteY 0x1234), []) ∧
    decode [0x96, 0x10] = .ok (.stx (.zeroPageY 0x10), []) ∧
    decode [0x94, 0x10] = .ok (.sty (.zeroPageX 0x10), []) := by decide

theorem test_decode_transfers :
    decode [0xAA] = .ok (.tax, []) ∧ decode [0xA8] = .ok (.tay, []) ∧ decode [0x8A] = .ok (.txa, []) ∧
    decode [0x98] = .ok (.tya, []) ∧ decode [0xBA] = .ok (.tsx, []) ∧ decode [0x9A] = .ok (.txs, []) := by decide

theorem test_decode_arithmetic :
    decode [0x6D, 0x34, 0x12] = .ok (.adc (.mem (.absolute 0x1234)), []) ∧
    decode [0xF5, 0x10] = .ok (.sbc (.mem (.zeroPageX 0x10)), []) ∧
    decode [0x21, 0x10] = .ok (.and (.mem (.indirectX 0x10)), []) ∧
    decode [0x19, 0x34, 0x12] = .ok (.ora (.mem (.absoluteY 0x1234)), []) ∧
    decode [0x49, 0x10] = .ok (.eor (.immediate 0x10), []) ∧
    decode [0x2C, 0x34, 0x12] = .ok (.bit (.absolute 0x1234), []) := by decide

theorem test_decode_compares :
    decode [0xD1, 0x10] = .ok (.cmp (.mem (.indirectY 0x10)), []) ∧
    decode [0xE4, 0x10] = .ok (.cpx (.mem (.zeroPage 0x10)), []) ∧
    decode [0xCC, 0x34, 0x12] = .ok (.cpy (.mem (.absolute 0x1234)), []) := by decide

theorem test_decode_increments :
    decode [0xFE, 0x34, 0x12] = .ok (.inc (.absoluteX 0x1234), []) ∧
    decode [0xD6, 0x10] = .ok (.dec (.zeroPageX 0x10), []) ∧ decode [0xE8] = .ok (.inx, []) ∧
    decode [0xC8] = .ok (.iny, []) ∧ decode [0xCA] = .ok (.dex, []) ∧ decode [0x88] = .ok (.dey, []) := by decide

theorem test_decode_shifts :
    decode [0x0E, 0x34, 0x12] = .ok (.asl (.mem (.absolute 0x1234)), []) ∧
    decode [0x4A] = .ok (.lsr .accumulator, []) ∧ decode [0x36, 0x10] = .ok (.rol (.mem (.zeroPageX 0x10)), []) ∧
    decode [0x7E, 0x34, 0x12] = .ok (.ror (.mem (.absoluteX 0x1234)), []) := by decide

theorem test_decode_branches :
    decode [0x10, 0x80] = .ok (.bpl 0x80, []) ∧ decode [0x30, 0x80] = .ok (.bmi 0x80, []) ∧
    decode [0x50, 0x80] = .ok (.bvc 0x80, []) ∧ decode [0x70, 0x80] = .ok (.bvs 0x80, []) ∧
    decode [0x90, 0x80] = .ok (.bcc 0x80, []) ∧ decode [0xB0, 0x80] = .ok (.bcs 0x80, []) ∧
    decode [0xD0, 0x80] = .ok (.bne 0x80, []) ∧ decode [0xF0, 0x80] = .ok (.beq 0x80, []) := by decide

theorem test_decode_jumps :
    decode [0x6C, 0x34, 0x12] = .ok (.jmp (.indirect 0x1234), []) ∧ decode [0x20, 0x34, 0x12] = .ok (.jsr 0x1234, []) ∧
    decode [0x60] = .ok (.rts, []) ∧ decode [0x00] = .ok (.brk, []) ∧ decode [0x40] = .ok (.rti, []) := by decide

theorem test_decode_stack :
    decode [0x48] = .ok (.pha, []) ∧ decode [0x08] = .ok (.php, []) ∧ decode [0x68] = .ok (.pla, []) ∧
    decode [0x28] = .ok (.plp, []) := by decide

theorem test_decode_flags :
    decode [0x18] = .ok (.clc, []) ∧ decode [0x38] = .ok (.sec, []) ∧
    decode [0x58] = .ok (.cli, []) ∧ decode [0x78] = .ok (.sei, []) ∧ decode [0xD8] = .ok (.cld, []) ∧
    decode [0xF8] = .ok (.sed, []) ∧ decode [0xB8] = .ok (.clv, []) ∧ decode [0xEA] = .ok (.nop, []) := by decide

/-- R98, R100: an undefined byte takes no operand. -/
theorem test_decode_undefined : decode [0xFF, 0xA9, 0x01] = .ok (.undefined 0xFF, [0xA9, 0x01]) := by decide

/-- The decoder's own rejection of a byte string that ends too early (log entry 20). -/
theorem test_decode_too_short :
    (decode [0xA9]).toOption = none ∧ (decode [0x4C, 0x00]).toOption = none ∧ (decode []).toOption = none := by decide

/-! ## Effective addresses (95_test_vectors.md V3, V7, V8, V13, V14) -/

theorem test_ea_zeroPageX_wraps : ea (.zeroPageX 0xFF) (cpu 0x8000 [] 0 0x02 0 0xFF 0 []) = 0x0001 := by decide

theorem test_ea_absolute_indexed_wraps :
    ea (.absoluteX 0xFFFF) (cpu 0x8000 [] 0 0x02 0 0xFF 0 []) = 0x0001 ∧
    ea (.absoluteY 0xFFF0) (cpu 0x8000 [] 0 0 0x20 0xFF 0 []) = 0x0010 := by decide

theorem test_ea_indirectX_pointer_wraps :
    ea (.indirectX 0xFE) (cpu 0x8000 [] 0 0x01 0 0xFF 0 [(0x00FF, 0x00), (0x0000, 0x40)]) = 0x4000 := by decide

theorem test_ea_indirectY_crosses_page :
    ea (.indirectY 0x20) (cpu 0x8000 [] 0 0 0x10 0xFF 0 [(0x0020, 0xF8), (0x0021, 0x30)]) = 0x3108 := by decide

/-! ## Loads, stores, transfers: one step each, expected results from 95_test_vectors.md -/

/-- V15 (R132): LDA ($FF),Y (pointer high byte at $0000). -/
theorem test_lda_indirectY_pointer_wraps :
    (after (cpu 0x8000 [0xB1, 0xFF] 0x00 0x00 0x01 0xFF 0x00
      [(0x00FF, 0xFF), (0x0000, 0x20), (0x2100, 0x66)])).map registers =
      some ⟨0x8002, 0x66, 0x00, 0x01, 0xFF, 0x00, .running⟩ := by decide

/-- V20 (R138): LDA at $FFFF takes operand from $0000. -/
theorem test_lda_operand_wraps_to_zero :
    (after (cpu 0xFFFF [0xA9] 0x00 0x00 0x00 0xFF 0x00 [(0x0000, 0x77)])).map registers =
      some ⟨0x0001, 0x77, 0x00, 0x00, 0xFF, 0x00, .running⟩ := by decide

/-- V4 (R126): LDX $FF,Y (wrap). -/
theorem test_ldx_zeroPageY_wraps :
    (after (cpu 0x8000 [0xB6, 0xFF] 0x00 0x00 0x02 0xFF 0x00 [(0x0001, 0x33)])).map registers =
      some ⟨0x8002, 0x00, 0x33, 0x02, 0xFF, 0x00, .running⟩ := by decide

/-- V24 (R152): LDX #$FF. -/
theorem test_ldx_negative :
    (after (cpu 0x8000 [0xA2, 0xFF] 0x00 0x00 0x00 0xFF 0x00 [])).map registers =
      some ⟨0x8002, 0x00, 0xFF, 0x00, 0xFF, 0x80, .running⟩ := by decide

/-- V25 (R153): LDY $0200. -/
theorem test_ldy_absolute :
    (after (cpu 0x8000 [0xAC, 0x00, 0x02] 0x00 0x00 0x00 0xFF 0x02 [(0x0200, 0x01)])).map registers =
      some ⟨0x8003, 0x00, 0x00, 0x01, 0xFF, 0x00, .running⟩ := by decide

/-- V26 (R154): STA $10,X. -/
theorem test_sta_zeroPageX_wraps :
    (after (cpu 0x8000 [0x95, 0x10] 0x42 0xF5 0x00 0xFF 0x82 [])).map (fun t =>
      (registers t, t.memRead 0x0005)) =
      some (⟨0x8002, 0x42, 0xF5, 0x00, 0xFF, 0x82, .running⟩, 0x42) := by decide

/-- V29 (R154): STA ($40),Y. -/
theorem test_sta_indirectY :
    (after (cpu 0x8000 [0x91, 0x40] 0x01 0x00 0x05 0xFF 0x00 [(0x0040, 0x00), (0x0041, 0x02)])).map (fun t =>
      (registers t, t.memRead 0x0205)) =
      some (⟨0x8002, 0x01, 0x00, 0x05, 0xFF, 0x00, .running⟩, 0x01) := by decide

/-- V27 (R155): STX $0300. -/
theorem test_stx_absolute :
    (after (cpu 0x8000 [0x8E, 0x00, 0x03] 0x00 0x5A 0x00 0xFF 0x00 [])).map (fun t =>
      (registers t, t.memRead 0x0300)) =
      some (⟨0x8003, 0x00, 0x5A, 0x00, 0xFF, 0x00, .running⟩, 0x5A) := by decide

/-- V28 (R156): STY $44. -/
theorem test_sty_zeroPage :
    (after (cpu 0x8000 [0x84, 0x44] 0x00 0x00 0x99 0xFF 0x00 [])).map (fun t =>
      (registers t, t.memRead 0x0044)) =
      some (⟨0x8002, 0x00, 0x00, 0x99, 0xFF, 0x00, .running⟩, 0x99) := by decide

/-- V30 (R157): TAX (A=0). -/
theorem test_tax :
    (after (cpu 0x8000 [0xAA] 0x00 0x12 0x00 0xFF 0x00 [])).map registers =
      some ⟨0x8001, 0x00, 0x00, 0x00, 0xFF, 0x02, .running⟩ := by decide

/-- V31 (R158): TAY. -/
theorem test_tay :
    (after (cpu 0x8000 [0xA8] 0x90 0x00 0x00 0xFF 0x00 [])).map registers =
      some ⟨0x8001, 0x90, 0x00, 0x90, 0xFF, 0x80, .running⟩ := by decide

/-- V32 (R159): TXA. -/
theorem test_txa :
    (after (cpu 0x8000 [0x8A] 0xFF 0x01 0x00 0xFF 0x80 [])).map registers =
      some ⟨0x8001, 0x01, 0x01, 0x00, 0xFF, 0x00, .running⟩ := by decide

/-- V33 (R160): TYA. -/
theorem test_tya :
    (after (cpu 0x8000 [0x98] 0x05 0x00 0x00 0xFF 0x00 [])).map registers =
      some ⟨0x8001, 0x00, 0x00, 0x00, 0xFF, 0x02, .running⟩ := by decide

/-- V34 (R161): TSX. -/
theorem test_tsx :
    (after (cpu 0x8000 [0xBA] 0x00 0x00 0x00 0x80 0x00 [])).map registers =
      some ⟨0x8001, 0x00, 0x80, 0x00, 0x80, 0x80, .running⟩ := by decide

/-- V35 (R162): TXS (no flags). -/
theorem test_txs_no_flags :
    (after (cpu 0x8000 [0x9A] 0x00 0x00 0x00 0xFF 0x80 [])).map registers =
      some ⟨0x8001, 0x00, 0x00, 0x00, 0x00, 0x80, .running⟩ := by decide

/-! ## Arithmetic and logic: one step each, expected results from 95_test_vectors.md -/

/-- V39 (R180): ADC #$FF with C=1: 0xFF+0xFF+1. -/
theorem test_adc_carry_in_and_out :
    (after (cpu 0x8000 [0x69, 0xFF] 0xFF 0x00 0x00 0xFF 0x01 [])).map registers =
      some ⟨0x8002, 0xFF, 0x00, 0x00, 0xFF, 0x81, .running⟩ := by decide

/-- V41 (R180): ADC with D=1 (DECIMAL_POLICY=ignore): 0x09+0x01. -/
theorem test_adc_ignores_decimal :
    (after (cpu 0x8000 [0x69, 0x01] 0x09 0x00 0x00 0xFF 0x08 [])).map registers =
      some ⟨0x8002, 0x0A, 0x00, 0x00, 0xFF, 0x08, .running⟩ := by decide

/-- V44 (R182): SBC #$01, C=1: 0x80-0x01. -/
theorem test_sbc_signed_overflow :
    (after (cpu 0x8000 [0xE9, 0x01] 0x80 0x00 0x00 0xFF 0x01 [])).map registers =
      some ⟨0x8002, 0x7F, 0x00, 0x00, 0xFF, 0x41, .running⟩ := by decide

/-- V46 (R182): SBC #$00, C=0: 0x00-0-1. -/
theorem test_sbc_borrows :
    (after (cpu 0x8000 [0xE9, 0x00] 0x00 0x00 0x00 0xFF 0x00 [])).map registers =
      some ⟨0x8002, 0xFF, 0x00, 0x00, 0xFF, 0x80, .running⟩ := by decide

/-- V48 (R184): AND #$0F. -/
theorem test_and_zero :
    (after (cpu 0x8000 [0x29, 0x0F] 0xF0 0x00 0x00 0xFF 0x41 [])).map registers =
      some ⟨0x8002, 0x00, 0x00, 0x00, 0xFF, 0x43, .running⟩ := by decide

/-- V49 (R185): ORA #$80. -/
theorem test_ora :
    (after (cpu 0x8000 [0x09, 0x80] 0x01 0x00 0x00 0xFF 0x00 [])).map registers =
      some ⟨0x8002, 0x81, 0x00, 0x00, 0xFF, 0x80, .running⟩ := by decide

/-- V50 (R186): EOR #$FF. -/
theorem test_eor :
    (after (cpu 0x8000 [0x49, 0xFF] 0xFF 0x00 0x00 0xFF 0x00 [])).map registers =
      some ⟨0x8002, 0x00, 0x00, 0x00, 0xFF, 0x02, .running⟩ := by decide

/-- V51 (R188): BIT $10 (M=0xC0, A=0x01). -/
theorem test_bit_sets :
    (after (cpu 0x8000 [0x24, 0x10] 0x01 0x00 0x00 0xFF 0x00 [(0x0010, 0xC0)])).map registers =
      some ⟨0x8002, 0x01, 0x00, 0x00, 0xFF, 0xC2, .running⟩ := by decide

/-- V52 (R188): BIT $10 (M=0x3F, A=0x3F). -/
theorem test_bit_clears :
    (after (cpu 0x8000 [0x24, 0x10] 0x3F 0x00 0x00 0xFF 0xC2 [(0x0010, 0x3F)])).map registers =
      some ⟨0x8002, 0x3F, 0x00, 0x00, 0xFF, 0x00, .running⟩ := by decide

/-- V54 (R190): CMP #$06 (less). -/
theorem test_cmp_less_keeps_overflow :
    (after (cpu 0x8000 [0xC9, 0x06] 0x05 0x00 0x00 0xFF 0x40 [])).map registers =
      some ⟨0x8002, 0x05, 0x00, 0x00, 0xFF, 0xC0, .running⟩ := by decide

/-- V55 (R190): CMP #$01 (A=0x80). -/
theorem test_cmp_unsigned :
    (after (cpu 0x8000 [0xC9, 0x01] 0x80 0x00 0x00 0xFF 0x00 [])).map registers =
      some ⟨0x8002, 0x80, 0x00, 0x00, 0xFF, 0x01, .running⟩ := by decide

/-- V56 (R191): CPX #$00. -/
theorem test_cpx_equal :
    (after (cpu 0x8000 [0xE0, 0x00] 0x00 0x00 0x00 0xFF 0x00 [])).map registers =
      some ⟨0x8002, 0x00, 0x00, 0x00, 0xFF, 0x03, .running⟩ := by decide

/-- V57 (R192): CPY #$FF (Y=0x00). -/
theorem test_cpy_less :
    (after (cpu 0x8000 [0xC0, 0xFF] 0x00 0x00 0x00 0xFF 0x00 [])).map registers =
      some ⟨0x8002, 0x00, 0x00, 0x00, 0xFF, 0x00, .running⟩ := by decide

/-- V58 (R193): INC $10 (0xFF). -/
theorem test_inc_wraps :
    (after (cpu 0x8000 [0xE6, 0x10] 0x00 0x00 0x00 0xFF 0x01 [(0x0010, 0xFF)])).map (fun t =>
      (registers t, t.memRead 0x0010)) =
      some (⟨0x8002, 0x00, 0x00, 0x00, 0xFF, 0x03, .running⟩, 0x00) := by decide

/-- V59 (R194): DEC $10 (0x00). -/
theorem test_dec_wraps :
    (after (cpu 0x8000 [0xC6, 0x10] 0x00 0x00 0x00 0xFF 0x00 [(0x0010, 0x00)])).map (fun t =>
      (registers t, t.memRead 0x0010)) =
      some (⟨0x8002, 0x00, 0x00, 0x00, 0xFF, 0x80, .running⟩, 0xFF) := by decide

/-- V60 (R195): INX (0x7F). -/
theorem test_inx_negative :
    (after (cpu 0x8000 [0xE8] 0x00 0x7F 0x00 0xFF 0x00 [])).map registers =
      some ⟨0x8001, 0x00, 0x80, 0x00, 0xFF, 0x80, .running⟩ := by decide

/-- V61 (R196): INY (0xFF). -/
theorem test_iny_wraps :
    (after (cpu 0x8000 [0xC8] 0x00 0x00 0xFF 0xFF 0x00 [])).map registers =
      some ⟨0x8001, 0x00, 0x00, 0x00, 0xFF, 0x02, .running⟩ := by decide

/-- V62 (R197): DEX (0x01). -/
theorem test_dex_zero :
    (after (cpu 0x8000 [0xCA] 0x00 0x01 0x00 0xFF 0x00 [])).map registers =
      some ⟨0x8001, 0x00, 0x00, 0x00, 0xFF, 0x02, .running⟩ := by decide

/-- V63 (R198): DEY (0x00). -/
theorem test_dey_wraps :
    (after (cpu 0x8000 [0x88] 0x00 0x00 0x00 0xFF 0x00 [])).map registers =
      some ⟨0x8001, 0x00, 0x00, 0xFF, 0xFF, 0x80, .running⟩ := by decide

/-! ## Shifts and rotates: one step each, expected results from 95_test_vectors.md -/

/-- V64 (R221): ASL A (0x81). -/
theorem test_asl_accumulator :
    (after (cpu 0x8000 [0x0A] 0x81 0x00 0x00 0xFF 0x00 [])).map registers =
      some ⟨0x8001, 0x02, 0x00, 0x00, 0xFF, 0x01, .running⟩ := by decide

/-- V65 (R221): ASL $10 (0x40). -/
theorem test_asl_memory :
    (after (cpu 0x8000 [0x06, 0x10] 0x00 0x00 0x00 0xFF 0x01 [(0x0010, 0x40)])).map (fun t =>
      (registers t, t.memRead 0x0010)) =
      some (⟨0x8002, 0x00, 0x00, 0x00, 0xFF, 0x80, .running⟩, 0x80) := by decide

/-- V66 (R222): LSR A (0x01). -/
theorem test_lsr_accumulator :
    (after (cpu 0x8000 [0x4A] 0x01 0x00 0x00 0xFF 0x80 [])).map registers =
      some ⟨0x8001, 0x00, 0x00, 0x00, 0xFF, 0x03, .running⟩ := by decide

/-- V67 (R222): LSR $0200 (0xFE). -/
theorem test_lsr_memory :
    (after (cpu 0x8000 [0x4E, 0x00, 0x02] 0x00 0x00 0x00 0xFF 0x00 [(0x0200, 0xFE)])).map (fun t =>
      (registers t, t.memRead 0x0200)) =
      some (⟨0x8003, 0x00, 0x00, 0x00, 0xFF, 0x00, .running⟩, 0x7F) := by decide

/-- V68 (R223): ROL A (0x80, C=0). -/
theorem test_rol_out :
    (after (cpu 0x8000 [0x2A] 0x80 0x00 0x00 0xFF 0x00 [])).map registers =
      some ⟨0x8001, 0x00, 0x00, 0x00, 0xFF, 0x03, .running⟩ := by decide

/-- V69 (R223): ROL A (0x40, C=1). -/
theorem test_rol_in :
    (after (cpu 0x8000 [0x2A] 0x40 0x00 0x00 0xFF 0x01 [])).map registers =
      some ⟨0x8001, 0x81, 0x00, 0x00, 0xFF, 0x80, .running⟩ := by decide

/-- V70 (R224): ROR A (0x01, C=0). -/
theorem test_ror_out :
    (after (cpu 0x8000 [0x6A] 0x01 0x00 0x00 0xFF 0x00 [])).map registers =
      some ⟨0x8001, 0x00, 0x00, 0x00, 0xFF, 0x03, .running⟩ := by decide

/-- V71 (R224): ROR $10,X (0x02, C=1). -/
theorem test_ror_memory_in :
    (after (cpu 0x8000 [0x76, 0x10] 0x00 0x01 0x00 0xFF 0x01 [(0x0011, 0x02)])).map (fun t =>
      (registers t, t.memRead 0x0011)) =
      some (⟨0x8002, 0x00, 0x01, 0x00, 0xFF, 0x80, .running⟩, 0x81) := by decide

/-! ## Control transfer: one step each, expected results from 95_test_vectors.md -/

/-- V72 (R241): BPL taken. -/
theorem test_bpl_taken :
    (after (cpu 0x8000 [0x10, 0x04] 0x00 0x00 0x00 0xFF 0x00 [])).map registers =
      some ⟨0x8006, 0x00, 0x00, 0x00, 0xFF, 0x00, .running⟩ := by decide

/-- V73 (R242): BMI not taken. -/
theorem test_bmi_not_taken :
    (after (cpu 0x8000 [0x30, 0x04] 0x00 0x00 0x00 0xFF 0x00 [])).map registers =
      some ⟨0x8002, 0x00, 0x00, 0x00, 0xFF, 0x00, .running⟩ := by decide

/-- V74 (R242): BMI taken. -/
theorem test_bmi_taken :
    (after (cpu 0x8000 [0x30, 0x04] 0x00 0x00 0x00 0xFF 0x80 [])).map registers =
      some ⟨0x8006, 0x00, 0x00, 0x00, 0xFF, 0x80, .running⟩ := by decide

/-- V75 (R243): BVC taken back. -/
theorem test_bvc_back :
    (after (cpu 0x8010 [0x50, 0xF0] 0x00 0x00 0x00 0xFF 0x00 [])).map registers =
      some ⟨0x8002, 0x00, 0x00, 0x00, 0xFF, 0x00, .running⟩ := by decide

/-- V76 (R244): BVS taken. -/
theorem test_bvs_taken :
    (after (cpu 0x8000 [0x70, 0x7F] 0x00 0x00 0x00 0xFF 0x40 [])).map registers =
      some ⟨0x8081, 0x00, 0x00, 0x00, 0xFF, 0x40, .running⟩ := by decide

/-- V77 (R245): BCC taken back. -/
theorem test_bcc_back :
    (after (cpu 0x8000 [0x90, 0x80] 0x00 0x00 0x00 0xFF 0x00 [])).map registers =
      some ⟨0x7F82, 0x00, 0x00, 0x00, 0xFF, 0x00, .running⟩ := by decide

/-- V19 (R133): BCC across $FFFF. -/
theorem test_bcc_across_the_top :
    (after (cpu 0xFFFE [0x90, 0x01] 0x00 0x00 0x00 0xFF 0x00 [])).map registers =
      some ⟨0x0001, 0x00, 0x00, 0x00, 0xFF, 0x00, .running⟩ := by decide

/-- V78 (R246): BCS taken. -/
theorem test_bcs_taken :
    (after (cpu 0x8000 [0xB0, 0x02] 0x00 0x00 0x00 0xFF 0x01 [])).map registers =
      some ⟨0x8004, 0x00, 0x00, 0x00, 0xFF, 0x01, .running⟩ := by decide

/-- V17 (R133): BNE back max (-128). -/
theorem test_bne_furthest_back :
    (after (cpu 0x8000 [0xD0, 0x80] 0x00 0x00 0x00 0xFF 0x00 [])).map registers =
      some ⟨0x7F82, 0x00, 0x00, 0x00, 0xFF, 0x00, .running⟩ := by decide

/-- V79 (R247): BNE taken back. -/
theorem test_bne_back :
    (after (cpu 0x8004 [0xD0, 0xFA] 0x00 0x00 0x00 0xFF 0x00 [])).map registers =
      some ⟨0x8000, 0x00, 0x00, 0x00, 0xFF, 0x00, .running⟩ := by decide

/-- V80 (R248): BEQ not taken. -/
theorem test_beq_not_taken :
    (after (cpu 0x8000 [0xF0, 0x10] 0x00 0x00 0x00 0xFF 0x00 [])).map registers =
      some ⟨0x8002, 0x00, 0x00, 0x00, 0xFF, 0x00, .running⟩ := by decide

/-- V81 (R248): BEQ taken. -/
theorem test_beq_taken :
    (after (cpu 0x8000 [0xF0, 0x10] 0x00 0x00 0x00 0xFF 0x02 [])).map registers =
      some ⟨0x8012, 0x00, 0x00, 0x00, 0xFF, 0x02, .running⟩ := by decide

/-- V82 (R249): JMP $9000. -/
theorem test_jmp_absolute :
    (after (cpu 0x8000 [0x4C, 0x00, 0x90] 0x00 0x00 0x00 0xFF 0x00 [])).map registers =
      some ⟨0x9000, 0x00, 0x00, 0x00, 0xFF, 0x00, .running⟩ := by decide

/-- V10 and V11 (R130): JMP ($12FF) under both values of JMP_IND_PAGE_WRAP. -/
theorem test_jmp_indirect_page_wrap :
    ∀ wrap : Bool, (next? (stepIn { decided with jmpIndPageWrap := wrap } (cpu 0x8000 [0x6C, 0xFF, 0x12] 0 0 0 0xFF 0
      [(0x12FF, 0x34), (0x1200, 0x56), (0x1300, 0x78)]))).map registers =
      some ⟨if wrap then 0x5634 else 0x7834, 0, 0, 0, 0xFF, 0, .running⟩ := by decide

/-- V83 (R250): JSR $9000. -/
theorem test_jsr :
    (after (cpu 0x8000 [0x20, 0x00, 0x90] 0x00 0x00 0x00 0xFF 0x00 [])).map (fun t =>
      (registers t, t.memRead 0x01FE, t.memRead 0x01FF)) =
      some (⟨0x9000, 0x00, 0x00, 0x00, 0xFD, 0x00, .running⟩, 0x02, 0x80) := by decide

/-- V84 (R250): JSR at $FFFD, SP=0x00. -/
theorem test_jsr_stack_wraps :
    (after (cpu 0xFFFD [0x20, 0x00, 0x90] 0x00 0x00 0x00 0x00 0x00 [])).map (fun t =>
      (registers t, t.memRead 0x0100, t.memRead 0x01FF)) =
      some (⟨0x9000, 0x00, 0x00, 0x00, 0xFE, 0x00, .running⟩, 0xFF, 0xFF) := by decide

/-- V85 (R251): RTS. -/
theorem test_rts :
    (after (cpu 0x8000 [0x60] 0x00 0x00 0x00 0xFD 0x00 [(0x01FE, 0x02), (0x01FF, 0x80)])).map registers =
      some ⟨0x8003, 0x00, 0x00, 0x00, 0xFF, 0x00, .running⟩ := by decide

/-- V86 (R251): RTS of 0xFFFF. -/
theorem test_rts_wraps :
    (after (cpu 0x8000 [0x60] 0x00 0x00 0x00 0xFD 0x00 [(0x01FE, 0xFF), (0x01FF, 0xFF)])).map registers =
      some ⟨0x0000, 0x00, 0x00, 0x00, 0xFF, 0x00, .running⟩ := by decide

/-- V88 (R252): BRK keeps other flags. -/
theorem test_brk_keeps_other_flags :
    (after (cpu 0x8000 [0x00] 0x00 0x00 0x00 0xFF 0xC3 [])).map registers =
      some ⟨0x8001, 0x00, 0x00, 0x00, 0xFF, 0xF3, .halted⟩ := by decide

/-- V89 (R253): RTI. -/
theorem test_rti :
    (after (cpu 0x8000 [0x40] 0x00 0x00 0x00 0xFC 0x00
      [(0x01FD, 0x01), (0x01FE, 0x00), (0x01FF, 0x90)])).map registers =
      some ⟨0x9000, 0x00, 0x00, 0x00, 0xFF, 0x01, .running⟩ := by decide

/-- V90 (R253): RTI pulling bit 4 set. -/
theorem test_rti_halts_on_bit_4 :
    (after (cpu 0x8000 [0x40] 0x00 0x00 0x00 0xFC 0x00
      [(0x01FD, 0x10), (0x01FE, 0x00), (0x01FF, 0x90)])).map registers =
      some ⟨0x9000, 0x00, 0x00, 0x00, 0xFF, 0x10, .halted⟩ := by decide

/-! ## Stack, flags, NOP, undefined: one step each, expected results from 95_test_vectors.md -/

/-- V91 (R271): PHA. -/
theorem test_pha :
    (after (cpu 0x8000 [0x48] 0x42 0x00 0x00 0xFF 0x00 [])).map (fun t =>
      (registers t, t.memRead 0x01FF)) =
      some (⟨0x8001, 0x42, 0x00, 0x00, 0xFE, 0x00, .running⟩, 0x42) := by decide

/-- V92 (R271): PHA at SP=0x00. -/
theorem test_pha_wraps :
    (after (cpu 0x8000 [0x48] 0x42 0x00 0x00 0x00 0x00 [])).map (fun t =>
      (registers t, t.memRead 0x0100)) =
      some (⟨0x8001, 0x42, 0x00, 0x00, 0xFF, 0x00, .running⟩, 0x42) := by decide

/-- V93 (R272): PHP. -/
theorem test_php :
    (after (cpu 0x8000 [0x08] 0x00 0x00 0x00 0xFF 0x81 [])).map (fun t =>
      (registers t, t.memRead 0x01FF)) =
      some (⟨0x8001, 0x00, 0x00, 0x00, 0xFE, 0x81, .running⟩, 0x81) := by decide

/-- V94 (R273): PLA. -/
theorem test_pla :
    (after (cpu 0x8000 [0x68] 0x00 0x00 0x00 0xFE 0x00 [(0x01FF, 0x80)])).map registers =
      some ⟨0x8001, 0x80, 0x00, 0x00, 0xFF, 0x80, .running⟩ := by decide

/-- V95 (R273): PLA at SP=0xFF. -/
theorem test_pla_wraps :
    (after (cpu 0x8000 [0x68] 0x11 0x00 0x00 0xFF 0x00 [(0x0100, 0x00)])).map registers =
      some ⟨0x8001, 0x00, 0x00, 0x00, 0x00, 0x02, .running⟩ := by decide

/-- V97 (R274): PLP pulling 0x20 (bit 5 only). -/
theorem test_plp_bit_5_goes_on :
    (after (cpu 0x8000 [0x28] 0x00 0x00 0x00 0xFE 0x00 [(0x01FF, 0x20)])).map registers =
      some ⟨0x8001, 0x00, 0x00, 0x00, 0xFF, 0x20, .running⟩ := by decide

/-- V98 (R274): PLP pulling 0x10 (bit 4). -/
theorem test_plp_bit_4_halts :
    (after (cpu 0x8000 [0x28] 0x00 0x00 0x00 0xFE 0x00 [(0x01FF, 0x10)])).map registers =
      some ⟨0x8001, 0x00, 0x00, 0x00, 0xFF, 0x10, .halted⟩ := by decide

/-- V99 (R275): CLC. -/
theorem test_clc :
    (after (cpu 0x8000 [0x18] 0x00 0x00 0x00 0xFF 0xC3 [])).map registers =
      some ⟨0x8001, 0x00, 0x00, 0x00, 0xFF, 0xC2, .running⟩ := by decide

/-- V100 (R276): SEC. -/
theorem test_sec :
    (after (cpu 0x8000 [0x38] 0x00 0x00 0x00 0xFF 0x00 [])).map registers =
      some ⟨0x8001, 0x00, 0x00, 0x00, 0xFF, 0x01, .running⟩ := by decide

/-- V101 (R277): CLI. -/
theorem test_cli :
    (after (cpu 0x8000 [0x58] 0x00 0x00 0x00 0xFF 0x04 [])).map registers =
      some ⟨0x8001, 0x00, 0x00, 0x00, 0xFF, 0x00, .running⟩ := by decide

/-- V102 (R278): SEI. -/
theorem test_sei :
    (after (cpu 0x8000 [0x78] 0x00 0x00 0x00 0xFF 0x00 [])).map registers =
      some ⟨0x8001, 0x00, 0x00, 0x00, 0xFF, 0x04, .running⟩ := by decide

/-- V103 (R279): CLD. -/
theorem test_cld :
    (after (cpu 0x8000 [0xD8] 0x00 0x00 0x00 0xFF 0x08 [])).map registers =
      some ⟨0x8001, 0x00, 0x00, 0x00, 0xFF, 0x00, .running⟩ := by decide

/-- V104 (R280): SED. -/
theorem test_sed :
    (after (cpu 0x8000 [0xF8] 0x00 0x00 0x00 0xFF 0x00 [])).map registers =
      some ⟨0x8001, 0x00, 0x00, 0x00, 0xFF, 0x08, .running⟩ := by decide

/-- V105 (R281): CLV. -/
theorem test_clv :
    (after (cpu 0x8000 [0xB8] 0x00 0x00 0x00 0xFF 0x40 [])).map registers =
      some ⟨0x8001, 0x00, 0x00, 0x00, 0xFF, 0x00, .running⟩ := by decide

/-- V106 (R282): NOP. -/
theorem test_nop :
    (after (cpu 0x8000 [0xEA] 0x12 0x00 0x00 0xFF 0x81 [])).map registers =
      some ⟨0x8001, 0x12, 0x00, 0x00, 0xFF, 0x81, .running⟩ := by decide

/-- V108 (R283): undefined FF (no operand consumed). -/
theorem test_undefined_takes_no_operand :
    (after (cpu 0x8000 [0xFF, 0xA9, 0x01] 0x00 0x00 0x00 0xFF 0x00 [])).map (fun t =>
      (registers t, t.diag)) =
      some (⟨0x8001, 0x00, 0x00, 0x00, 0xFF, 0x00, .running⟩, [⟨0x8000, 0xFF⟩]) := by decide

/-- V109 (R283): undefined 80 (Immediate-looking byte, still 1 byte). -/
theorem test_undefined_looking_immediate :
    (after (cpu 0x8000 [0x80, 0x01] 0x00 0x00 0x00 0xFF 0x00 [])).map (fun t =>
      (registers t, t.diag)) =
      some (⟨0x8001, 0x00, 0x00, 0x00, 0xFF, 0x00, .running⟩, [⟨0x8000, 0x80⟩]) := by decide

/-! ## The host's calls (95_test_vectors.md S10, V110 to V114) -/

/-- S10: a host write, then a host read. -/
theorem test_host_write_read : (State.reset.hostWrite 0x00A1 0x41).hostRead 0x00A1 = 0x41 := by decide

/-- R79, D16: an image that runs over the top of memory goes on at 0x0000. -/
theorem test_load_wraps :
    ((State.reset.load 0xFFFF [0x11, 0x22]).memRead 0xFFFF, (State.reset.load 0xFFFF [0x11, 0x22]).memRead 0x0000) =
      (0x11, 0x22) := by decide

/-- A halted core with P = 0x30 and one byte at 0x8000. -/
def haltedCore (b : Byte) : State := { cpu 0x8000 [b] 0x05 0x06 0 0 0x30 [] with runState := .halted }

/-- V110: `step` on a halted core changes nothing. -/
theorem test_halted_core_stays : next? (hostStep (haltedCore 0xEA)) = some (haltedCore 0xEA) ∧
    after (haltedCore 0xEA) = none ∧ next? (runFor 3 (haltedCore 0xEA)) = some (haltedCore 0xEA) := by decide

/-- V111: started again with P[4] = 1, a NOP runs and the core halts. -/
theorem test_restart_halts_after_nop :
    (next? (runFor 5 ((haltedCore 0xEA).start 0x8000))).map registers =
      some ⟨0x8001, 0x05, 0x06, 0x00, 0x00, 0x30, .halted⟩ := by decide

/-- V113: the diagnostic and the halt coincide. -/
theorem test_restart_undefined_halts :
    (after ((haltedCore 0x02).start 0x8000)).map (fun t => (registers t, t.diag)) =
      some (⟨0x8001, 0x05, 0x06, 0x00, 0x00, 0x30, .halted⟩, [⟨0x8000, 0x02⟩]) := by decide

/-- V114: a jump to itself leaves the state as it was. -/
theorem test_jump_to_self :
    next? (runFor 3 (cpu 0x8000 [0x4C, 0x00, 0x80] 0 0 0 0 0 [])) = some (cpu 0x8000 [0x4C, 0x00, 0x80] 0 0 0 0 0 []) := by
  decide

/-- A table row's word, its first byte in bits 7 to 0, decoded and run as the first instruction after creation. -/
theorem test_table_word :
    decodeTableWord 16 0x05A9 = some (.lda (.immediate 0x05)) ∧ decodeTableWord 8 0xA9 = some (.lda (.immediate 0x00)) ∧
    (after (State.reset.withFetchWord 16 0x05A9)).map registers = some ⟨2, 0x05, 0, 0, 0, 0, .running⟩ := by decide

/-! ## Witnesses: a concrete state and operands that meet all the hypotheses of a statement, clause by clause -/

theorem witness_DecodeOfEncode :
    (Instr.lda (.mem (.absoluteX 0xFFFF))).wellFormed = true ∧ (Instr.undefined 0xFF).wellFormed = true := by decide

theorem witness_EncodeOfDecode : decode [0xA9, 0x05, 0xAA] = .ok (.lda (.immediate 0x05), [0xAA]) := by decide

theorem witness_OpcodeBytesByMnemonic :
    (Instr.jmp (.indirect 0x0120)).opcode? = some 0x6C ∧ (Instr.stx (.absoluteX 0x0120)).opcode? = none := by decide

/-- A core about to run LDA #$05. -/
def loading : State := cpu 0x8000 [0xA9, 0x05] 0 0 0 0 0 []

/-- A core about to run BRK. -/
def breaking : State := cpu 0xFFFF [0x00] 0 0 0 0 0 []

theorem witness_StepKeepsMemoryCanonical : loading.Inv ∧ StepsOn loading := ⟨rfl, _, rfl⟩

/-- Both outcomes of the halt check. -/
theorem witness_StepRunsDecodedInstruction :
    (loading.runState = .running ∧ decode (loading.bytesFrom loading.pc 2) = .ok (.lda (.immediate 0x05), []) ∧
      (after loading).map State.runState = some .running) ∧
    (breaking.runState = .running ∧ decode (breaking.bytesFrom breaking.pc 1) = .ok (.brk, []) ∧
      (after breaking).map State.runState = some .halted) := by decide

theorem witness_FetchReadsTheBytesAtPC : 1 < 2 ∧ (breaking.bytesFrom 0xFFFF 2)[1]? = some 0x00 := by decide

theorem witness_RunningCoreAlwaysSteps : loading.runState = .running := rfl

theorem witness_HaltedCoreHasNoStep : State.reset.runState = .halted := rfl

theorem witness_HaltedAfterStepIffBreakSet :
    (∃ t, step loading = .next t ∧ t.runState = .running) ∧ (∃ t, step breaking = .next t ∧ t.runState = .halted) :=
  ⟨⟨_, rfl, rfl⟩, ⟨_, rfl, rfl⟩⟩

/-- A core about to meet an undefined opcode. -/
def unknown : State := cpu 0x8000 [0x02] 0 0 0 0 0 []

theorem witness_DiagnosticsAreEvents :
    (StepsOn unknown ∧ unknown.memRead unknown.pc ∈ undefinedOpcodes) ∧
    (StepsOn loading ∧ loading.memRead loading.pc ∉ undefinedOpcodes) :=
  ⟨⟨⟨_, rfl⟩, by decide⟩, ⟨⟨_, rfl⟩, by decide⟩⟩

theorem witness_EndStateHasBreakSet : ∃ t, EndsIn State.reset 0x8000 t := ⟨_, 1, rfl, rfl⟩

theorem witness_StoppedRunContinues : ∃ t, runFor 1 loading = .next t := ⟨_, rfl⟩

theorem witness_RestartedCoreHaltsAfterOneStep :
    (haltedCore 0xEA).p.getLsbD 4 = true ∧ (∃ t, step ((haltedCore 0xEA).start 0x8000) = .next t) ∧
      ((haltedCore 0xEA).start 0x8000).fetchInstr ≠ .plp ∧ ((haltedCore 0xEA).start 0x8000).fetchInstr ≠ .rti :=
  ⟨rfl, ⟨_, rfl⟩, by decide, by decide⟩

theorem witness_PCAdvancesByLength : writesPC (.lda (.immediate 0x05)) = false ∧ writesPC .brk = false := by decide

/-- NOP is a writer of no bit of P, so every clause's hypothesis is met. -/
theorem witness_StatusBitWriters :
    (∃ t, exec .nop loading = .next t) ∧ writesC .nop = false ∧ writesZN .nop = false ∧ writesI .nop = false ∧
      writesD .nop = false ∧ writesB .nop = false ∧ writesV .nop = false :=
  ⟨⟨_, rfl⟩, by decide⟩

theorem witness_RegisterWriters :
    (∃ t, exec .nop loading = .next t) ∧ writesA .nop = false ∧ writesX .nop = false ∧ writesY .nop = false ∧
      writesSP .nop = false :=
  ⟨⟨_, rfl⟩, by decide⟩

/-- A store at the top of memory, and a push at each end of page 1. -/
theorem witness_MemoryWriters :
    (∃ t, exec (.sta (.absolute 0xFFFF)) (cpu 0 [] 0x42 0 0 0 0 []) = .next t ∧
      t.memRead 0xFFFF ≠ (cpu 0 [] 0x42 0 0 0 0 []).memRead 0xFFFF) ∧
    (∃ t, exec .pha (cpu 0x8000 [] 0x42 0 0 0x00 0 []) = .next t ∧
      t.memRead 0x0100 ≠ (cpu 0x8000 [] 0x42 0 0 0x00 0 []).memRead 0x0100) ∧
    (∃ t, exec .pha (cpu 0x8000 [] 0x42 0 0 0xFF 0 []) = .next t ∧
      t.memRead 0x01FF ≠ (cpu 0x8000 [] 0x42 0 0 0xFF 0 []).memRead 0x01FF) :=
  ⟨⟨_, rfl, by decide⟩, ⟨_, rfl, by decide⟩, ⟨_, rfl, by decide⟩⟩

/-- Two states that differ in P.I. -/
theorem witness_InterruptDisableGatesNothing :
    Instr.nop ≠ .php ∧ { loading.setP 0x04 with p := loading.p } = loading ∧
      (∀ k, k ≠ 2 → (loading.setP 0x04).p.getLsbD k = loading.p.getLsbD k) ∧ ∃ t, exec .nop loading = .next t := by
  refine ⟨by decide, rfl, ?_, _, rfl⟩
  intro k hk
  show (4#8).getLsbD k = (0#8).getLsbD k
  simp only [BitVec.getLsbD_ofNat, show (4 : Nat) = 2 ^ 2 from rfl, Nat.testBit_two_pow_of_ne (Ne.symm hk),
    Nat.zero_testBit]

theorem witness_StoresWriteOneByte (op : MemOperand) (s : State) :
    (Instr.sta op, s.a) ∈ [(Instr.sta op, s.a), (Instr.stx op, s.x), (Instr.sty op, s.y)] := List.mem_cons_self

theorem witness_MemoryIncrementDecrement (op : MemOperand) :
    (Instr.dec op, 255) ∈ [(Instr.inc op, 1), (Instr.dec op, 255)] := .tail _ (.head _)

/-- The `refuse` values of both policies. -/
def refusing : Config := { decided with decimalPolicy := .refuse, undefinedPolicy := .refuse }

/-- A core about to meet an undefined opcode, refused under `refusing`; ADC with P.D set, refused as well; a core that
goes on; and a halted one. -/
theorem witness_RefusePolicies :
    (refusing.decimalPolicy = .refuse ∧ (loading.setP 0x08).p.getLsbD 3 = true) ∧
    (decided.decimalPolicy = .ignore ∧ (loading.setP 0xF7).p.getLsbD 3 = false) ∧
    refusing.undefinedPolicy = .refuse ∧ decided.undefinedPolicy = .nopDiagnostic ∧ readsParameter .nop = false ∧
    (loading.runState = .running ∧ ∃ u, execIn refusing loading.fetchInstr loading = .next u) ∧
    (unknown.runState = .running ∧ ∃ r, execIn refusing unknown.fetchInstr unknown = .refused r) ∧
    State.reset.runState = .halted :=
  ⟨by decide, by decide, rfl, rfl, rfl, ⟨rfl, _, rfl⟩, ⟨rfl, _, rfl⟩, rfl⟩

/-- R10, R283: a run under UNDEFINED_POLICY = refuse ends at an undefined opcode. -/
theorem test_run_refuses_undefined : runForIn refusing 5 unknown = .refused (.undefinedOpcode 0x8000 0x02) := rfl

/-- JSR at the top of memory with the stack wrapping: the return address is 0xFFFF, the place to return to 0x0000. -/
theorem witness_CallThenReturn :
    ∃ t, exec (.jsr 0x9000) (cpu 0xFFFD [0x20, 0x00, 0x90] 0 0 0 0x00 0 []) = .next t ∧ t.sp = 0xFE ∧
      byteAt t (stackAt (t.sp + 1)) = 0xFF ∧ byteAt t (stackAt (t.sp + 2)) = 0xFF :=
  ⟨_, rfl, by decide⟩

/-- STA $8003 at 0x8000: the stored byte is the next opcode. -/
theorem witness_StoredOpcodeIsFetchedNext :
    ∃ t, exec (.sta (.absolute 0x8003)) (cpu 0x8000 [0x8D, 0x03, 0x80] 0xEA 0 0 0 0 []) = .next t ∧
      ea (.absolute 0x8003) (cpu 0x8000 [0x8D, 0x03, 0x80] 0xEA 0 0 0 0 []) = t.pc :=
  ⟨_, rfl, by decide⟩

end Sys2Proof.Tests
end

section
/-! The program counter of an instruction that does not write it: only the fetch phase moves it (10_state.md R37). -/
namespace Sys2Proof.Machine

open Sys2Proof.Claims

/-- The fetch of an opcode byte and of the operand bytes of `m` advances PC by their number, modulo 65536 (R37). -/
theorem advanced_of_pc_eq_fetched {s t : State} {m : Mode} (h : t.pc = (s.fetched m).pc) :
    Advanced s t (1 + m.width) := by
  have hpc : t.pc = s.pc + BitVec.ofNat 16 (1 + m.width) := by
    rw [h, State.fetched_pc, BitVec.ofNat_add, ← BitVec.add_assoc]
    rfl
  rw [Advanced, hpc, BitVec.toNat_add, BitVec.toNat_ofNat, Nat.add_mod_mod]

/-- A shift or rotate leaves PC where its fetch put it (R220). -/
@[simp] theorem shiftWith_pc (f : Byte → Bool → Shifted) (op : ShiftOperand) (s : State) :
    (shiftWith f op s).pc = (s.fetched op.mode).pc := by
  cases op <;> rfl

/-- The execute phase of an instruction outside R36's writers of PC leaves PC where the fetch phase put it. -/
theorem exec_pc_eq_fetched (i : Instr) (s : State) (h : writesPC i = false) :
    ∃ t, exec i s = .next t ∧ t.pc = (s.fetched i.mode).pc := by
  match i, h with
  | .lda _, _ | .ldx _, _ | .ldy _, _ | .sta _, _ | .stx _, _ | .sty _, _
  | .tax, _ | .tay, _ | .txa, _ | .tya, _ | .tsx, _ | .txs, _
  | .and _, _ | .ora _, _ | .eor _, _ | .bit _, _ | .cmp _, _ | .cpx _, _ | .cpy _, _
  | .inc _, _ | .dec _, _ | .inx, _ | .iny, _ | .dex, _ | .dey, _
  | .brk, _ | .pha, _ | .php, _ | .pla, _ | .plp, _
  | .clc, _ | .sec, _ | .cli, _ | .sei, _ | .cld, _ | .sed, _ | .clv, _ | .nop, _ => exact ⟨_, rfl, rfl⟩
  | .adc _, _ | .sbc _, _ => exact ⟨_, addToA_decided _ _ s, rfl⟩
  | .asl op, _ | .lsr op, _ | .rol op, _ | .ror op, _ => exact ⟨_, rfl, shiftWith_pc _ op s⟩
  | .undefined op, _ => exact ⟨_, undefinedIn_decided op s, rfl⟩

/-- Settles O20: the fetch phase alone moves PC, by one opcode byte and the operand bytes of the mode. -/
theorem pcAdvancesByLength : Obligations.PCAdvancesByLength := by
  unfold Obligations.PCAdvancesByLength
  intro i s h
  obtain ⟨t, hexec, hpc⟩ := exec_pc_eq_fetched i s h
  exact ⟨t, hexec, advanced_of_pc_eq_fetched hpc⟩

end Sys2Proof.Machine
end

section
/-! The bus, the host's access and the stack (20_memory.md): what a read gives after a write, and what neither touches. -/
namespace Sys2Proof.Machine

open Sys2Proof.Claims

/-! ## The bus (R61) and the host's access (R80) -/

/-- The core is created over zeroed memory. -/
theorem State.memRead_reset (w : Word) : State.reset.memRead w = 0x00 := rfl

theorem State.memWrite_stores (s : State) (addr : Word) (v : Byte) : Stores s (s.memWrite addr v) addr v :=
  State.memRead_memWrite s addr v

/-- A write reaches no part of the state but memory. -/
theorem State.memWrite_frame (s : State) (addr : Word) (v : Byte) : { s.memWrite addr v with mem := s.mem } = s := rfl

theorem State.hostRead_hostWrite_same (s : State) (addr : Word) (v : Byte) :
    (s.hostWrite addr v).hostRead addr = v := by
  rw [State.hostWrite, State.hostRead, State.memRead_memWrite, if_pos rfl]

/-- Settles O8: the bus write is the write of the flat memory, which is zero at creation. -/
theorem busContract : Obligations.BusContract := by
  unfold Obligations.BusContract
  exact ⟨State.memRead_reset, fun s addr v => ⟨s.memWrite_stores addr v, s.memWrite_frame addr v⟩⟩

/-- Settles O59: the host's accesses are the bus's own. -/
theorem hostWriteThenRead : Obligations.HostWriteThenRead := by
  unfold Obligations.HostWriteThenRead
  exact fun s addr v => ⟨s.hostRead_hostWrite_same addr v, s.memWrite_frame addr v⟩

/-! ## The stack (R69 to R71) -/

theorem toNat_sub_one (b : Byte) : (b - 1).toNat = (b.toNat + 255) % 256 := by
  rw [BitVec.toNat_sub, Nat.add_comm]
  rfl

theorem toNat_add_one (b : Byte) : (b + 1).toNat = (b.toNat + 1) % 256 := BitVec.toNat_add b 1

/-- The byte of page 1 that SP points at (R68). -/
theorem memRead_stackAddr (s : State) (sp : Byte) : s.memRead (stackAddr sp) = byteAt s (256 + sp.toNat) := by
  rw [byteAt, ← toNat_stackAddr, BitVec.ofNat_toNat, BitVec.setWidth_eq]

/-- A pull reads where the raised SP points. -/
theorem State.pullByte_eq_byteAt (s : State) : s.pullByte = byteAt s (256 + (s.sp.toNat + 1) % 256) := by
  rw [State.pullByte, memRead_stackAddr, toNat_add_one]

/-- A pull undoes a push's move of SP, at both ends of page 1 too. -/
theorem State.push_pulled_sp (s : State) (v : Byte) : (s.push v).pulled.sp = s.sp := by
  rw [State.pulled_sp, State.push_sp, BitVec.sub_add_cancel]

/-- A pull reads the byte that the push before it wrote: SP is back where the push found it. -/
theorem State.pullByte_push (s : State) (v : Byte) : (s.push v).pullByte = v := by
  rw [State.pullByte, State.push_sp, BitVec.sub_add_cancel, State.memRead_push, if_pos rfl]

/-- A push writes one byte, moves SP down, and touches nothing else (R70). -/
theorem State.push_spec (s : State) (v : Byte) :
    (∀ w : Word, (s.push v).memRead w = if w.toNat = 256 + s.sp.toNat then v else s.memRead w) ∧
      (s.push v).sp.toNat = (s.sp.toNat + 255) % 256 ∧ { s.push v with sp := s.sp, mem := s.mem } = s := by
  refine ⟨fun w => ?_, toNat_sub_one s.sp, rfl⟩
  simp only [State.memRead_push, eq_stackAddr_iff]

/-- A pull reads one byte, moves SP up, and touches nothing else (R71). -/
theorem State.pull_spec (s : State) :
    s.pullByte = byteAt s (256 + (s.sp.toNat + 1) % 256) ∧ s.pulled.sp.toNat = (s.sp.toNat + 1) % 256 ∧
      { s.pulled with sp := s.sp } = s :=
  ⟨s.pullByte_eq_byteAt, toNat_add_one s.sp, rfl⟩

/-- Settles O49: what a push does, what a pull does, and that the one undoes the other (R69). -/
theorem pushAndPull : Obligations.PushAndPull := by
  unfold Obligations.PushAndPull
  exact fun s v => ⟨s.push_spec v, s.pull_spec, s.pullByte_push v, s.push_pulled_sp v⟩

end Sys2Proof.Machine
end

section
/-! AddWithCarry (42_arithmetic_logic.md R181): the sum, its carry, and three forms of its signed overflow. -/
namespace Sys2Proof.Machine

theorem addWithCarry_result_toNat (a b : Byte) (cin : Bool) :
    (addWithCarry a b cin).result.toNat = (a.toNat + b.toNat + cin.toNat) % 256 :=
  BitVec.toNat_ofNat _ 8

theorem addWithCarry_carry_iff (a b : Byte) (cin : Bool) :
    (addWithCarry a b cin).carry = true ↔ 256 ≤ a.toNat + b.toNat + cin.toNat :=
  decide_eq_true_iff

theorem addWithCarry_overflow_iff (a b : Byte) (cin : Bool) :
    (addWithCarry a b cin).overflow = true ↔
      a.getLsbD 7 = b.getLsbD 7 ∧ (addWithCarry a b cin).result.getLsbD 7 ≠ a.getLsbD 7 := by
  simp only [addWithCarry, Bool.and_eq_true, beq_iff_eq, bne_iff_ne]

/-- The bitwise overflow test asks whether two bytes have one sign bit and a third the other. -/
theorem getLsbD_xor_and_xor_iff (a b r : Byte) (k : Nat) :
    ((a ^^^ r) &&& (b ^^^ r)).getLsbD k = true ↔
      a.getLsbD k = b.getLsbD k ∧ r.getLsbD k ≠ a.getLsbD k := by
  rw [BitVec.getLsbD_and, BitVec.getLsbD_xor, BitVec.getLsbD_xor]
  cases a.getLsbD k <;> cases b.getLsbD k <;> cases r.getLsbD k <;> decide

/-- Operands of one sign overflow where the sum's sign is the other, operands of opposite signs never. -/
theorem addWithCarry_overflow_iff_signed (a b : Byte) (cin : Bool) :
    (addWithCarry a b cin).overflow = true ↔
      (a.toInt + b.toInt + (cin.toNat : Int) < -128 ∨ 127 < a.toInt + b.toInt + (cin.toNat : Int)) := by
  have ha := a.isLt
  have hb := b.isLt
  have hc := cin.toNat_le
  rw [addWithCarry_overflow_iff, BitVec.toInt_eq_toNat_cond, BitVec.toInt_eq_toNat_cond]
  simp only [getLsbD_seven, addWithCarry_result_toNat, ne_eq, decide_eq_decide]
  by_cases hsigns : 128 ≤ a.toNat ↔ 128 ≤ b.toNat
  case pos => rw [and_iff_right hsigns]; omega
  case neg => exact iff_of_false (fun h => hsigns h.1) (by omega)

/-- Settles O32: the overflow that the model computes is the bitwise test of the signs and the signed range test. -/
theorem addWithCarryIsExact : Obligations.AddWithCarryIsExact := by
  unfold Obligations.AddWithCarryIsExact
  intro a b cin
  have hv := addWithCarry_overflow_iff a b cin
  exact ⟨addWithCarry_result_toNat a b cin, addWithCarry_carry_iff a b cin, hv,
    hv.trans (getLsbD_xor_and_xor_iff a b _ 7).symm, addWithCarry_overflow_iff_signed a b cin⟩

end Sys2Proof.Machine
end

section
/-! Instructions that write one result and set Z and N of it (R41), and the logic instructions among them
(42_arithmetic_logic.md R184 to R187). -/
namespace Sys2Proof.Machine

open Sys2Proof.Claims

theorem beq_zero_eq_decide_toNat (v : Byte) : (v == 0) = decide (v.toNat = 0) := by
  rw [Bool.beq_eq_decide_eq, decide_eq_decide, ← BitVec.toNat_inj]
  rfl

/-- SetZN writes Z and N, of its byte, and no other bit of P (R41). -/
theorem zeroNegative_withZN (p v : Byte) : ZeroNegative p (withZN p v) v := by
  refine ⟨?zero, ?negative, fun k h1 h7 => ?other⟩
  case zero => simp only [getLsbD_withZN, beq_zero_eq_decide_toNat, OfNat.one_ne_ofNat, if_true, if_false]
  case negative => rw [getLsbD_withZN, if_pos rfl, getLsbD_seven]
  case other => simp only [getLsbD_withZN, h1, h7, if_false]

/-- An execute phase that ends in SetZN of `r`, on a state `u` in which P, memory, the run state and the diagnostics are
still those of `s` and PC stands where the fetch put it. -/
theorem writesResult_of_exec_eq_setZN {i : Instr} {s u : State} {r : Byte} {regs : State → Prop}
    (hexec : exec i s = .next (u.setZN r)) (hregs : regs (u.setZN r)) (hpc : u.pc = (s.fetched i.mode).pc)
    (hp : u.p = s.p) (hmem : u.mem = s.mem) (hloop : SameLoop s u) : WritesResult i s r regs := by
  refine ⟨u.setZN r, hexec, hregs, ?_, advanced_of_pc_eq_fetched hpc, State.memRead_congr hmem, hloop⟩
  rw [State.setZN_p, hp]
  exact zeroNegative_withZN s.p r

/-- An execute phase that is the fetch, a write of A and SetZN of it. -/
theorem writesResult_of_exec_eq_setA {i : Instr} {s : State} {r : Byte}
    (hexec : exec i s = .next (((s.fetched i.mode).setA r).setZN r)) :
    WritesResult i s r (fun t => Regs t r s.x s.y s.sp) :=
  writesResult_of_exec_eq_setZN hexec ⟨rfl, rfl, rfl, rfl⟩ rfl rfl rfl ⟨rfl, rfl⟩

theorem exec_and (op : ReadOperand) (s : State) :
    exec (.and op) s =
      .next (((s.fetched op.mode).setA (s.a &&& readOperand op s)).setZN (s.a &&& readOperand op s)) := rfl

theorem exec_ora (op : ReadOperand) (s : State) :
    exec (.ora op) s =
      .next (((s.fetched op.mode).setA (s.a ||| readOperand op s)).setZN (s.a ||| readOperand op s)) := rfl

theorem exec_eor (op : ReadOperand) (s : State) :
    exec (.eor op) s =
      .next (((s.fetched op.mode).setA (s.a ^^^ readOperand op s)).setZN (s.a ^^^ readOperand op s)) := rfl

/-- Settles O36: each logic instruction is a fetch, a write of A and SetZN of it. -/
theorem logicWritesAccumulator : Obligations.LogicWritesAccumulator := by
  unfold Obligations.LogicWritesAccumulator
  exact fun op s => ⟨writesResult_of_exec_eq_setA (exec_and op s), writesResult_of_exec_eq_setA (exec_ora op s),
    writesResult_of_exec_eq_setA (exec_eor op s)⟩

end Sys2Proof.Machine
end

section
/-! The opcode map against the table of mnemonics (30_encoding.md R91 to R100): each cell of the one is where the other
says, and the decoder is the map followed by the operand bytes. -/
namespace Sys2Proof

open Sys2Proof.Machine Sys2Proof.Claims

/-! ## What a cell of the map stands for -/

/-- The instruction that a cell and the two bytes after the opcode byte make; the bytes it does not need are ignored. -/
def Form.instr : Form → Byte → Byte → Instr
  | .whole i, _, _ => i
  | .byte f, lo, _ => f lo
  | .word f, lo, hi => f (join hi lo)

/-- The operand bytes that a cell takes (R91). -/
def Form.taken : Form → Byte → Byte → List Byte
  | .whole _, _, _ => []
  | .byte _, lo, _ => [lo]
  | .word _, lo, hi => wordBytes (join hi lo)

/-- How many operand bytes a cell takes. -/
def Form.width : Form → Nat
  | .whole _ => 0
  | .byte _ => 1
  | .word _ => 2

theorem Form.taken_eq_take (f : Form) (lo hi : Byte) : f.taken lo hi = [lo, hi].take f.width := by
  cases f with
  | whole i => rfl
  | byte f => rfl
  | word f => simp [Form.taken, Form.width, wordBytes]

theorem Form.length_taken (f : Form) (lo hi : Byte) : (f.taken lo hi).length = f.width := by
  cases f <;> rfl

/-- The cell of `op` agrees with the table of R97: at all operand bytes its instruction is well formed, has the opcode
byte `op`, and is laid out with the bytes the cell takes. -/
def Form.Fits (op : Byte) (f : Form) : Prop :=
  ∀ lo hi, (f.instr lo hi).wellFormed = true ∧ (f.instr lo hi).opcode? = some op ∧
    (f.instr lo hi).operandBytes = f.taken lo hi ∧ (f.instr lo hi).length = 1 + f.width

/-- The opcode bytes of a row of R96: its high nibble is `r`. -/
def rowBytes (r : Nat) : List Byte := (List.range 16).map fun c => BitVec.ofNat 8 (16 * r + c)

theorem mem_rowBytes (op : Byte) : op ∈ rowBytes (op.toNat / 16) :=
  List.mem_map.mpr ⟨op.toNat % 16, List.mem_range.mpr (Nat.mod_lt _ (by decide)), by
    rw [Nat.div_add_mod, BitVec.ofNat_toNat, BitVec.setWidth_eq]⟩

/-- The two tables of the spec agree, row by row of R96, at all operand bytes. -/
theorem dispatch_fits (op : Byte) : (dispatch op).Fits op := by
  intro lo hi
  have hrows : (List.range 16).map (fun r => (rowBytes r).map fun op => let i := (dispatch op).instr lo hi
        (i.wellFormed, i.opcode?, i.operandBytes, i.length)) =
      (List.range 16).map fun r => (rowBytes r).map fun op =>
        (true, some op, (dispatch op).taken lo hi, 1 + (dispatch op).width) := rfl
  have hr : op.toNat / 16 ∈ List.range 16 := List.mem_range.mpr (Nat.div_lt_of_lt_mul op.isLt)
  have hcell := List.map_inj_left.mp (List.map_inj_left.mp hrows _ hr) op (mem_rowBytes op)
  simpa only [Prod.mk.injEq] using hcell

/-- The bytes that R98 lists have the undefined outcome in the map of R96. -/
theorem dispatch_undefined {op : Byte} (h : op ∈ undefinedOpcodes) : dispatch op = und op := by
  have hmap : undefinedOpcodes.map dispatch = undefinedOpcodes.map und := rfl
  exact List.map_inj_left.mp hmap op h

/-- Some operand bytes complete the cell to `i`. -/
def Form.Makes : Form → Instr → Prop
  | .whole j, i => j = i
  | .byte f, i => ∃ b, f b = i
  | .word f, i => ∃ w, f w = i

theorem Form.Makes.exists_bytes {f : Form} {i : Instr} (h : f.Makes i) : ∃ lo hi, f.instr lo hi = i := by
  cases f with
  | whole j => exact ⟨0, 0, h⟩
  | byte f =>
    obtain ⟨b, h⟩ := h
    exact ⟨b, 0, h⟩
  | word f =>
    obtain ⟨w, h⟩ := h
    exact ⟨loByte w, hiByte w, (congrArg f (join_hiByte_loByte w)).trans h⟩

/-- Every well-formed instruction is made by the cell at its opcode byte: the 151 forms of R97, and the undefined bytes
of R98. -/
theorem exists_dispatch_makes {i : Instr} (h : i.wellFormed = true) :
    ∃ op, i.opcode? = some op ∧ (dispatch op).Makes i := by
  match i, h with
  | .tax, _ | .tay, _ | .txa, _ | .tya, _ | .tsx, _ | .txs, _ | .inx, _ | .iny, _ | .dex, _ | .dey, _
  | .rts, _ | .brk, _ | .rti, _ | .pha, _ | .php, _ | .pla, _ | .plp, _
  | .clc, _ | .sec, _ | .cli, _ | .sei, _ | .cld, _ | .sed, _ | .clv, _ | .nop, _ => exact ⟨_, rfl, rfl⟩
  | .bpl x, _ | .bmi x, _ | .bvc x, _ | .bvs x, _ | .bcc x, _ | .bcs x, _ | .bne x, _ | .beq x, _ | .jsr x, _
  | .jmp (.absolute x), _ | .jmp (.indirect x), _ => exact ⟨_, rfl, x, rfl⟩
  | .lda op, h | .adc op, h | .sbc op, h | .and op, h | .ora op, h | .eor op, h | .cmp op, h =>
    match op, h with
    | .immediate x, _ | .mem (.zeroPage x), _ | .mem (.zeroPageX x), _ | .mem (.absolute x), _
    | .mem (.absoluteX x), _ | .mem (.absoluteY x), _ | .mem (.indirectX x), _ | .mem (.indirectY x), _ =>
      exact ⟨_, rfl, x, rfl⟩
  | .ldx (.immediate x), _ | .ldx (.mem (.zeroPage x)), _ | .ldx (.mem (.zeroPageY x)), _
  | .ldx (.mem (.absolute x)), _ | .ldx (.mem (.absoluteY x)), _
  | .ldy (.immediate x), _ | .ldy (.mem (.zeroPage x)), _ | .ldy (.mem (.zeroPageX x)), _
  | .ldy (.mem (.absolute x)), _ | .ldy (.mem (.absoluteX x)), _ => exact ⟨_, rfl, x, rfl⟩
  | .cpx op, h | .cpy op, h =>
    match op, h with
    | .immediate x, _ | .mem (.zeroPage x), _ | .mem (.absolute x), _ => exact ⟨_, rfl, x, rfl⟩
  | .sta (.zeroPage x), _ | .sta (.zeroPageX x), _ | .sta (.absolute x), _ | .sta (.absoluteX x), _
  | .sta (.absoluteY x), _ | .sta (.indirectX x), _ | .sta (.indirectY x), _
  | .stx (.zeroPage x), _ | .stx (.zeroPageY x), _ | .stx (.absolute x), _
  | .sty (.zeroPage x), _ | .sty (.zeroPageX x), _ | .sty (.absolute x), _
  | .bit (.zeroPage x), _ | .bit (.absolute x), _ => exact ⟨_, rfl, x, rfl⟩
  | .inc op, h | .dec op, h =>
    match op, h with
    | .zeroPage x, _ | .zeroPageX x, _ | .absolute x, _ | .absoluteX x, _ => exact ⟨_, rfl, x, rfl⟩
  | .asl op, h | .lsr op, h | .rol op, h | .ror op, h =>
    match op, h with
    | .accumulator, _ => exact ⟨_, rfl, rfl⟩
    | .mem (.zeroPage x), _ | .mem (.zeroPageX x), _ | .mem (.absolute x), _ | .mem (.absoluteX x), _ =>
      exact ⟨_, rfl, x, rfl⟩
  | .undefined op, h =>
    have hop : undefinedOpcodes.contains op = true := h
    refine ⟨op, if_pos hop, ?_⟩
    rw [dispatch_undefined (List.contains_iff_mem.mp hop)]
    rfl

/-! ## The decoder and the encoder on one cell -/

/-- Decoding the bytes of a cell gives the cell's instruction and what follows them (R91, R94). -/
theorem decode_cons_taken_append (op lo hi : Byte) (rest : List Byte) :
    decode (op :: ((dispatch op).taken lo hi ++ rest)) = .ok ((dispatch op).instr lo hi, rest) := by
  cases hop : dispatch op with
  | whole i => simp only [decode, hop, Form.taken, Form.instr, List.nil_append]
  | byte f => simp only [decode, hop, Form.taken, Form.instr, List.cons_append, List.nil_append]
  | word f =>
    simp only [decode, hop, Form.taken, Form.instr, wordBytes, List.cons_append, List.nil_append, join_hiByte_loByte]

/-- What the decoder reads is the bytes of the cell at the opcode byte. -/
theorem exists_taken_of_decode {op : Byte} {bs rest : List Byte} {i : Instr} (h : decode (op :: bs) = .ok (i, rest)) :
    ∃ lo hi, i = (dispatch op).instr lo hi ∧ bs = (dispatch op).taken lo hi ++ rest := by
  cases hop : dispatch op with
  | whole j =>
    simp only [decode, hop] at h
    cases h
    exact ⟨0, 0, rfl, rfl⟩
  | byte f =>
    match bs, h with
    | [], h => simp [decode, hop] at h
    | lo :: bs, h =>
      simp only [decode, hop] at h
      cases h
      exact ⟨lo, 0, rfl, rfl⟩
  | word f =>
    match bs, h with
    | [], h => simp [decode, hop] at h
    | [_], h => simp [decode, hop] at h
    | lo :: hi :: bs, h =>
      simp only [decode, hop] at h
      cases h
      exact ⟨lo, hi, rfl, by rw [Form.taken_eq_take]; rfl⟩

/-- The instruction of a cell encodes to the opcode byte and the bytes the cell takes (R90). -/
theorem encode_instr (op lo hi : Byte) :
    encode ((dispatch op).instr lo hi) = some (op :: (dispatch op).taken lo hi) := by
  obtain ⟨-, hop, hbytes, -⟩ := dispatch_fits op lo hi
  rw [encode, hop, hbytes]
  rfl

/-- Settles O1: a well-formed instruction is the one made by the cell at its opcode byte. -/
theorem decodeOfEncode : Obligations.DecodeOfEncode := by
  unfold Obligations.DecodeOfEncode
  intro i rest hwf
  obtain ⟨op, -, hmakes⟩ := exists_dispatch_makes hwf
  obtain ⟨lo, hi, rfl⟩ := hmakes.exists_bytes
  obtain ⟨-, -, -, hlen⟩ := dispatch_fits op lo hi
  refine ⟨_, encode_instr op lo hi, ?_, decode_cons_taken_append op lo hi rest⟩
  rw [hlen, List.length_cons, Form.length_taken, Nat.add_comm]

/-- Settles O2: the cell at the opcode byte fits the byte. -/
theorem encodeOfDecode : Obligations.EncodeOfDecode := by
  unfold Obligations.EncodeOfDecode
  intro bs rest i h
  cases bs with
  | nil => cases h
  | cons op bs =>
    obtain ⟨lo, hi, rfl, rfl⟩ := exists_taken_of_decode h
    obtain ⟨hwf, -⟩ := dispatch_fits op lo hi
    exact ⟨hwf, _, encode_instr op lo hi, rfl⟩

/-- Two bytes are enough for every cell, which leaves those it does not take. -/
theorem decode_two_operand_bytes (op lo hi : Byte) :
    decode [op, lo, hi] = .ok ((dispatch op).instr lo hi, [lo, hi].drop (dispatch op).width) := by
  have h := decode_cons_taken_append op lo hi ([lo, hi].drop (dispatch op).width)
  rwa [Form.taken_eq_take, List.take_append_drop] at h

/-- Settles O3: the map has a cell at every byte, whose width is that of all its instructions. -/
theorem everyOpcodeByteDecodes : Obligations.EveryOpcodeByteDecodes := by
  unfold Obligations.EveryOpcodeByteDecodes
  intro op b1 b2
  have hlen (lo hi : Byte) : ((dispatch op).instr lo hi).length = 1 + (dispatch op).width := by
    obtain ⟨-, -, -, hlen⟩ := dispatch_fits op lo hi
    exact hlen
  have hdrop : ((dispatch op).instr b1 b2).length - 1 = (dispatch op).width := by
    rw [hlen, Nat.add_sub_cancel_left]
  obtain ⟨-, hop, -⟩ := dispatch_fits op b1 b2
  refine ⟨(dispatch op).instr b1 b2, ?_, hop, fun c1 c2 => ⟨(dispatch op).instr c1 c2, ?_, ?_⟩⟩
  · rw [hdrop, decode_two_operand_bytes]
  · rw [hdrop, decode_two_operand_bytes]
  · rw [hlen, hlen]

/-- Settles O4: the cells of R98 are at its bytes, and no other cell's instruction has such a byte. -/
theorem undefinedBytesDecode : Obligations.UndefinedBytesDecode := by
  unfold Obligations.UndefinedBytesDecode
  intro op rest
  refine ⟨⟨fun h => ?_, fun h => ?_⟩, rfl⟩
  · obtain ⟨hwf, -⟩ := encodeOfDecode _ _ _ h
    exact List.contains_iff_mem.mp hwf
  · have hd := decode_cons_taken_append op 0 0 rest
    rw [dispatch_undefined h] at hd
    exact hd

/-- The row of a mnemonic in the model's table against its row as the spec lists it. -/
theorem hasOpcodes_of_cells {α : Type} {c : α → Instr} {row : List (Mode × Byte)}
    (hcell : ∀ op, (c op).opcode? = (c op).opcodeRow.cell (c op).mode)
    (hrow : ∀ op m, (c op).opcodeRow.cell m = row.lookup m) : HasOpcodes c row :=
  fun op => (hcell op).trans (hrow op _)

/-- Settles O5: the rows agree mode by mode. -/
theorem opcodeBytesByMnemonic : Obligations.OpcodeBytesByMnemonic := by
  unfold Obligations.OpcodeBytesByMnemonic
  refine ⟨?_, ?_, ?_, ?_, rfl⟩ <;> and_intros <;>
    exact hasOpcodes_of_cells (fun _ => rfl) fun _ m => by cases m <;> rfl

/-- Settles O6: the decoder run on each example. -/
theorem syntaxTableExamplesDecode : Obligations.SyntaxTableExamplesDecode := by
  unfold Obligations.SyntaxTableExamplesDecode
  exact ⟨rfl, rfl, rfl, rfl, rfl, rfl, fun _ => rfl, rfl, rfl, rfl, rfl, rfl, rfl⟩

end Sys2Proof
end

section
/-! The fetch (20_memory.md R74, 46_execution_loop.md R302): the cell at the byte PC points at, completed by the bytes
after it. -/
namespace Sys2Proof.Machine

open Sys2Proof.Claims

theorem State.fetchInstr_eq_instr (s : State) :
    s.fetchInstr = (dispatch (s.memRead s.pc)).instr (s.memRead (s.pc + 1)) (s.memRead (s.pc + 2)) := by
  unfold State.fetchInstr
  cases dispatch (s.memRead s.pc) <;> rfl

/-- The opcode byte of the fetched instruction is the byte at PC. -/
theorem State.opcode?_fetchInstr (s : State) : s.fetchInstr.opcode? = some (s.memRead s.pc) := by
  obtain ⟨-, hop, -⟩ := dispatch_fits (s.memRead s.pc) (s.memRead (s.pc + 1)) (s.memRead (s.pc + 2))
  rw [State.fetchInstr_eq_instr, hop]

/-- The operand bytes a cell takes at an address. -/
theorem State.bytesFrom_width (s : State) (w : Word) (f : Form) :
    s.bytesFrom w f.width = f.taken (s.memRead w) (s.memRead (w + 1)) := by
  rw [Form.taken_eq_take]
  cases f <;> rfl

theorem add_one_add_one (w : Word) : w + 1 + 1 = w + 2 := BitVec.add_assoc w 1 1

/-- The bytes from PC on, as many as the fetched instruction has, are its encoding. -/
theorem State.encode_fetchInstr (s : State) :
    encode s.fetchInstr = some (s.bytesFrom s.pc s.fetchInstr.length) := by
  obtain ⟨-, -, -, hlen⟩ := dispatch_fits (s.memRead s.pc) (s.memRead (s.pc + 1)) (s.memRead (s.pc + 2))
  rw [State.fetchInstr_eq_instr, hlen, encode_instr, Nat.add_comm, State.bytesFrom, State.bytesFrom_width,
    add_one_add_one]

/-- Byte `k` from an address on is the one `k` addresses further, modulo 65536. -/
theorem State.getElem?_bytesFrom (s : State) (w : Word) {n k : Nat} (hk : k < n) :
    (s.bytesFrom w n)[k]? = some (byteAt s ((w.toNat + k) % 65536)) := by
  induction n generalizing w k with
  | zero => exact absurd hk (Nat.not_lt_zero k)
  | succ n ih =>
    cases k with
    | zero =>
      rw [State.bytesFrom, List.getElem?_cons_zero, byteAt, Nat.add_zero, Nat.mod_eq_of_lt w.isLt,
        BitVec.ofNat_toNat, BitVec.setWidth_eq]
    | succ k =>
      rw [State.bytesFrom, List.getElem?_cons_succ, ih (w + 1) (Nat.lt_of_succ_lt_succ hk), BitVec.toNat_add]
      congr 2
      change ((w.toNat + 1) % 65536 + k) % 65536 = (w.toNat + (k + 1)) % 65536
      omega

/-- Settles O12: the fetched instruction is the one of the cell at PC, which fits the byte there. -/
theorem fetchReadsTheBytesAtPC : Obligations.FetchReadsTheBytesAtPC := by
  unfold Obligations.FetchReadsTheBytesAtPC
  intro s
  refine ⟨?_, s.encode_fetchInstr, fun w n k hk => s.getElem?_bytesFrom w hk⟩
  rw [State.fetchInstr_eq_instr]
  obtain ⟨hwf, -⟩ := dispatch_fits (s.memRead s.pc) (s.memRead (s.pc + 1)) (s.memRead (s.pc + 2))
  exact hwf

/-- Decoding any number of bytes from PC on reads the instruction that the fetch reads. -/
theorem State.eq_fetchInstr_of_decode {s : State} {n : Nat} {i : Instr} {rest : List Byte}
    (h : decode (s.bytesFrom s.pc n) = .ok (i, rest)) : i = s.fetchInstr := by
  cases n with
  | zero => cases h
  | succ n =>
    obtain ⟨lo, hi, rfl, hbytes⟩ := exists_taken_of_decode h
    rw [Form.taken_eq_take] at hbytes
    rw [State.fetchInstr_eq_instr]
    cases hop : dispatch (s.memRead s.pc) with
    | whole j => rfl
    | byte f =>
      rw [hop] at hbytes
      cases n with
      | zero => cases hbytes
      | succ n => exact congrArg f (List.cons.inj hbytes).1.symm
    | word f =>
      rw [hop] at hbytes
      match n, hbytes with
      | 0, hbytes => cases hbytes
      | 1, hbytes => cases (List.cons.inj hbytes).2
      | n + 2, hbytes =>
        obtain ⟨hlo, hbytes⟩ := List.cons.inj hbytes
        obtain ⟨hhi, -⟩ := List.cons.inj hbytes
        rw [← hlo, ← hhi, add_one_add_one]

/-- A fetched undefined opcode is the byte at PC (R98). -/
theorem State.fetchInstr_of_mem_undefinedOpcodes {s : State} (h : s.memRead s.pc ∈ undefinedOpcodes) :
    s.fetchInstr = .undefined (s.memRead s.pc) := by
  rw [State.fetchInstr_eq_instr, dispatch_undefined h]
  rfl

theorem State.fetchInstr_ne_undefined {s : State} (h : s.memRead s.pc ∉ undefinedOpcodes) (op : Byte) :
    s.fetchInstr ≠ .undefined op := by
  intro heq
  have hop := s.opcode?_fetchInstr
  rw [heq, Instr.opcode?] at hop
  split at hop
  case isTrue hmem =>
    cases hop
    exact h (List.contains_iff_mem.mp hmem)
  case isFalse => cases hop

end Sys2Proof.Machine
end

section
/-! What the execute phase can do, said once for all instructions: it always answers, and it writes the registers and
the memory that the instruction is listed for (10_state.md R32 to R35, 20_memory.md R63 to R68). -/
namespace Sys2Proof.Machine

open Sys2Proof.Claims

/-! ## The state after the execute phase -/

/-- At the decided parameters no instruction refuses (D10, D11). -/
theorem exec_answers (i : Instr) (s : State) : ∃ t, exec i s = .next t := by
  cases i with
  | adc op | sbc op => exact ⟨_, addToA_decided _ _ s⟩
  | _ => exact ⟨_, rfl⟩

/-- The state that `exec` answers. -/
def nextState (i : Instr) (s : State) : State :=
  match exec i s with
  | .next t => t
  | .fault _ => s
  | .refused _ => s

theorem nextState_of_exec {i : Instr} {s t : State} (h : exec i s = .next t) : nextState i s = t := by
  rw [nextState, h]

theorem exec_eq_next (i : Instr) (s : State) : exec i s = .next (nextState i s) := by
  obtain ⟨t, h⟩ := exec_answers i s
  rw [nextState_of_exec h, h]

/-- ADC writes A and P, the sum being binary whatever D holds (R180). -/
theorem nextState_adc (op : ReadOperand) (s : State) :
    nextState (.adc op) s =
      ((s.fetched op.mode).setA (addWithCarry s.a (readOperand op s) (isSet s.p .carry)).result).setP
        (withSum s.p (addWithCarry s.a (readOperand op s) (isSet s.p .carry))) :=
  nextState_of_exec (addToA_decided _ _ s)

/-- SBC is ADC of the one's complement (R182). -/
theorem nextState_sbc (op : ReadOperand) (s : State) :
    nextState (.sbc op) s =
      ((s.fetched op.mode).setA (addWithCarry s.a (~~~ readOperand op s) (isSet s.p .carry)).result).setP
        (withSum s.p (addWithCarry s.a (~~~ readOperand op s) (isSet s.p .carry))) :=
  nextState_of_exec (addToA_decided _ _ s)

/-! ## Registers, run state and diagnostics -/

/-- Only an undefined opcode writes a diagnostic (R331). -/
def writesDiag : Instr → Bool
  | .undefined _ => true
  | _ => false

/-- `t` with every register that `i` is not listed to write, the run state, and where `i` writes no diagnostic the
diagnostics, put back as they are in `s`. -/
def putBack (i : Instr) (s t : State) : State :=
  { t with
    a := bif writesA i then t.a else s.a
    x := bif writesX i then t.x else s.x
    y := bif writesY i then t.y else s.y
    sp := bif writesSP i then t.sp else s.sp
    runState := s.runState
    diag := bif writesDiag i then t.diag else s.diag }

/-- An instruction writes no register that it is not listed for. -/
theorem putBack_nextState (i : Instr) (s : State) : putBack i s (nextState i s) = nextState i s := by
  cases i with
  | adc op => rw [nextState_adc]; rfl
  | sbc op => rw [nextState_sbc]; rfl
  | asl op | lsr op | rol op | ror op => cases op <;> rfl
  | bpl d | bmi d | bvc d | bvs d | bcc d | bcs d | bne d | beq d =>
    change putBack _ s (branchIf _ d s) = branchIf _ d s
    rw [branchIf_eq]
    rfl
  | _ => rfl

theorem nextState_a {i : Instr} (s : State) (h : writesA i = false) : (nextState i s).a = s.a := by
  rw [← putBack_nextState, putBack, h, cond_false]

theorem nextState_x {i : Instr} (s : State) (h : writesX i = false) : (nextState i s).x = s.x := by
  rw [← putBack_nextState, putBack, h, cond_false]

theorem nextState_y {i : Instr} (s : State) (h : writesY i = false) : (nextState i s).y = s.y := by
  rw [← putBack_nextState, putBack, h, cond_false]

theorem nextState_sp {i : Instr} (s : State) (h : writesSP i = false) : (nextState i s).sp = s.sp := by
  rw [← putBack_nextState, putBack, h, cond_false]

theorem nextState_runState (i : Instr) (s : State) : (nextState i s).runState = s.runState := by
  rw [← putBack_nextState, putBack]

theorem nextState_diag {i : Instr} (s : State) (h : writesDiag i = false) : (nextState i s).diag = s.diag := by
  rw [← putBack_nextState, putBack, h, cond_false]

/-- Settles O22: the registers an instruction is not listed for can be put back without a change. -/
theorem registerWriters : Obligations.RegisterWriters := by
  unfold Obligations.RegisterWriters
  intro i s t h
  rw [← nextState_of_exec h]
  exact ⟨nextState_a s, nextState_x s, nextState_y s, nextState_sp s, nextState_runState i s⟩

/-! ## Memory -/

/-- What an instruction can leave in memory: what was there, one byte stored at its effective address, or one or two
bytes pushed. -/
inductive MemEffect (i : Instr) (s : State) : Memory → Prop
  | same : MemEffect i s s.mem
  | store (op : MemOperand) (v : Byte) : storesAt i = some op → MemEffect i s (s.memWrite (ea op s) v).mem
  | push (v : Byte) : pushesBytes i = true → MemEffect i s (s.push v).mem
  | pushTwo (v w : Byte) : pushesBytes i = true → MemEffect i s ((s.push v).push w).mem

theorem nextState_memEffect (i : Instr) (s : State) : MemEffect i s (nextState i s).mem := by
  cases i with
  | adc op => rw [nextState_adc]; exact .same
  | sbc op => rw [nextState_sbc]; exact .same
  | bpl d | bmi d | bvc d | bvs d | bcc d | bcs d | bne d | beq d =>
    change MemEffect _ s (branchIf _ d s).mem
    rw [branchIf_eq]
    exact .same
  | sta op | stx op | sty op | inc op | dec op => exact .store op _ rfl
  | asl op | lsr op | rol op | ror op =>
    cases op with
    | accumulator => exact .same
    | mem op => exact .store op _ rfl
  | pha | php => exact .push _ rfl
  | jsr addr => exact .pushTwo _ _ rfl
  | _ => exact .same

theorem MemEffect.wf {i : Instr} {s : State} {m : Memory} (h : MemEffect i s m) (hs : s.mem.wf = true) :
    m.wf = true := by
  cases h with
  | same => exact hs
  | store op v _ => exact State.wf_memWrite _ v hs
  | push v _ => exact State.wf_push v hs
  | pushTwo v w _ => exact State.wf_push w (State.wf_push v hs)

/-- Settles O10: the halt check writes no memory, and the execute phase stores or pushes bytes at most. -/
theorem stepKeepsMemoryCanonical : Obligations.StepKeepsMemoryCanonical := by
  unfold Obligations.StepKeepsMemoryCanonical
  intro s t hs h
  obtain ⟨-, u, hexec, rfl⟩ := step_inv h
  rw [State.Inv, State.haltCheck_mem, ← nextState_of_exec hexec]
  exact (nextState_memEffect _ s).wf hs

/-- The stack is page 1 (R68). -/
theorem stackAddr_in_page_one (sp : Byte) : 0x0100 ≤ (stackAddr sp).toNat ∧ (stackAddr sp).toNat ≤ 0x01FF := by
  have := sp.isLt
  rw [toNat_stackAddr]
  omega

/-- Settles O23: a byte that reads otherwise after a store or a push is the one stored or pushed. -/
theorem memoryWriters : Obligations.MemoryWriters := by
  unfold Obligations.MemoryWriters
  intro i s t w h hne
  have heff := nextState_memEffect i s
  rw [nextState_of_exec h] at heff
  change t.mem.read w.toNat ≠ s.memRead w at hne
  generalize t.mem = m at heff hne
  cases heff with
  | same => exact absurd rfl hne
  | store op v hop =>
    refine .inl ⟨op, hop, ?_⟩
    by_contra hw
    exact hne ((State.memRead_memWrite s _ v w).trans (if_neg hw))
  | push v hi =>
    refine .inr ⟨hi, ?_⟩
    by_cases hw : w = stackAddr s.sp
    · exact hw ▸ stackAddr_in_page_one s.sp
    · exact absurd ((State.memRead_push s v w).trans (if_neg hw)) hne
  | pushTwo u v hi =>
    refine .inr ⟨hi, ?_⟩
    by_cases hv : w = stackAddr (s.sp - 1)
    · exact hv ▸ stackAddr_in_page_one (s.sp - 1)
    by_cases hu : w = stackAddr s.sp
    · exact hu ▸ stackAddr_in_page_one s.sp
    · refine absurd ((State.memRead_push (s.push u) v w).trans ?_) hne
      rw [State.push_sp, if_neg hv, State.memRead_push, if_neg hu]

end Sys2Proof.Machine
end

section
/-! The bits of P that an instruction writes (10_state.md R43 to R48), and that bit 2 of them gates nothing (R45). -/
namespace Sys2Proof.Machine

open Sys2Proof.Claims

/-! ## The bits that each flag computation leaves -/

section
variable {k : Nat}

theorem getLsbD_writeFlag_of_ne {f : Flag} (hf : f ≠ .breakField) (hk : k ≠ flagBit f) (p : Byte) (v : Bool) :
    (writeFlag p f v).getLsbD k = p.getLsbD k := by
  rw [getLsbD_writeFlag_bit p f hf, if_neg hk]

theorem getLsbD_setFlag_breakField_of_ne (h4 : k ≠ 4) (h5 : k ≠ 5) (p : Byte) :
    (setFlag p .breakField).getLsbD k = p.getLsbD k := by
  rw [getLsbD_setFlag, getLsbD_flagMask_breakField, decide_eq_false h4, decide_eq_false h5, Bool.or_false,
    Bool.or_false]

theorem getLsbD_withZN_of_ne (h1 : k ≠ 1) (h7 : k ≠ 7) (p v : Byte) : (withZN p v).getLsbD k = p.getLsbD k := by
  rw [getLsbD_withZN, if_neg h7, if_neg h1]

theorem getLsbD_withSum_of_ne (h0 : k ≠ 0) (h1 : k ≠ 1) (h6 : k ≠ 6) (h7 : k ≠ 7) (p : Byte) (r : Sum) :
    (withSum p r).getLsbD k = p.getLsbD k := by
  rw [getLsbD_withSum, if_neg h7, if_neg h1, if_neg h6, if_neg h0]

theorem getLsbD_withCompare_of_ne (h0 : k ≠ 0) (h1 : k ≠ 1) (h7 : k ≠ 7) (p r m : Byte) :
    (withCompare p r m).getLsbD k = p.getLsbD k := by
  rw [getLsbD_withCompare, if_neg h7, if_neg h1, if_neg h0]

theorem getLsbD_withBitTest_of_ne (h1 : k ≠ 1) (h6 : k ≠ 6) (h7 : k ≠ 7) (p a m : Byte) :
    (withBitTest p a m).getLsbD k = p.getLsbD k := by
  rw [getLsbD_withBitTest, if_neg h6, if_neg h7, if_neg h1]

theorem getLsbD_withShift_of_ne (h0 : k ≠ 0) (h1 : k ≠ 1) (h7 : k ≠ 7) (p : Byte) (r : Shifted) :
    (withShift p r).getLsbD k = p.getLsbD k := by
  rw [getLsbD_withShift, if_neg h7, if_neg h1, if_neg h0]

end

/-! ## Who writes which bit -/

/-- Instruction `i` is listed as a writer of bit `k` of P. P has no bit from 8 on. -/
def writesBit (i : Instr) : Nat → Bool
  | 0 => writesC i
  | 1 | 7 => writesZN i
  | 2 => writesI i
  | 3 => writesD i
  | 4 | 5 => writesB i
  | 6 => writesV i
  | _ => true

/-- A bit that an instruction is not listed for is none of those it is listed for. -/
theorem ne_of_writesBit {i : Instr} {j k : Nat} (hk : writesBit i k = false) (hj : writesBit i j = true) : k ≠ j := by
  rintro rfl
  exact absurd (hk.symm.trans hj) Bool.false_ne_true

/-- PLP and RTI write every bit. -/
theorem writesBit_of_replacesP (k : Nat) : writesBit .plp k = true ∧ writesBit .rti k = true := by
  unfold writesBit
  constructor <;> split <;> rfl

/-- The bits of P that an instruction is not listed for stay as they are. -/
theorem nextState_p_getLsbD {i : Instr} (s : State) {k : Nat} (h : writesBit i k = false) :
    (nextState i s).p.getLsbD k = s.p.getLsbD k := by
  have hne {j : Nat} (hj : writesBit i j = true) : k ≠ j := ne_of_writesBit h hj
  cases i with
  | lda op | ldx op | ldy op | tax | tay | txa | tya | tsx | and op | ora op | eor op | inc op | dec op
  | inx | iny | dex | dey | pla => exact getLsbD_withZN_of_ne (hne rfl) (hne rfl) _ _
  | adc op => rw [nextState_adc, State.setP_p, getLsbD_withSum_of_ne (hne rfl) (hne rfl) (hne rfl) (hne rfl)]
  | sbc op => rw [nextState_sbc, State.setP_p, getLsbD_withSum_of_ne (hne rfl) (hne rfl) (hne rfl) (hne rfl)]
  | cmp op | cpx op | cpy op => exact getLsbD_withCompare_of_ne (hne rfl) (hne rfl) (hne rfl) _ _ _
  | bit op => exact getLsbD_withBitTest_of_ne (hne rfl) (hne rfl) (hne rfl) _ _ _
  | asl op | lsr op | rol op | ror op => exact getLsbD_withShift_of_ne (hne rfl) (hne rfl) (hne rfl) _ _
  | bpl d | bmi d | bvc d | bvs d | bcc d | bcs d | bne d | beq d =>
    change (branchIf _ d s).p.getLsbD k = s.p.getLsbD k
    rw [branchIf_eq, State.setPC_p]
  | clc => exact getLsbD_writeFlag_of_ne (f := .carry) (by decide) (hne rfl) _ false
  | sec => exact getLsbD_writeFlag_of_ne (f := .carry) (by decide) (hne rfl) _ true
  | cli => exact getLsbD_writeFlag_of_ne (f := .interruptDisable) (by decide) (hne rfl) _ false
  | sei => exact getLsbD_writeFlag_of_ne (f := .interruptDisable) (by decide) (hne rfl) _ true
  | cld => exact getLsbD_writeFlag_of_ne (f := .decimal) (by decide) (hne rfl) _ false
  | sed => exact getLsbD_writeFlag_of_ne (f := .decimal) (by decide) (hne rfl) _ true
  | clv => exact getLsbD_writeFlag_of_ne (f := .overflow) (by decide) (hne rfl) _ false
  | brk => exact getLsbD_setFlag_breakField_of_ne (hne rfl) (hne rfl) _
  | plp => exact absurd rfl (hne (writesBit_of_replacesP k).1)
  | rti => exact absurd rfl (hne (writesBit_of_replacesP k).2)
  | _ => rfl

/-- Settles O21: the bits of P an instruction is not listed for are not written. -/
theorem statusBitWriters : Obligations.StatusBitWriters := by
  unfold Obligations.StatusBitWriters
  intro i s t h
  rw [← nextState_of_exec h]
  have hbit (k : Nat) (hk : writesBit i k = false) := nextState_p_getLsbD s hk
  exact ⟨hbit 0, fun hzn => ⟨hbit 1 hzn, hbit 7 hzn⟩, hbit 2, hbit 3, fun hb => ⟨hbit 4 hb, hbit 5 hb⟩, hbit 6⟩

/-! ## Bit 2 gates nothing -/

/-- Two status bytes that agree but for bit 2, P.I. -/
def AgreeOffI (p q : Byte) : Prop := ∀ k, k ≠ 2 → q.getLsbD k = p.getLsbD k

section
variable {p q : Byte}

/-- Every flag that an instruction tests reads the same. -/
theorem AgreeOffI.isSet_eq (h : AgreeOffI p q) {f : Flag} (hf : f ≠ .interruptDisable) : isSet q f = isSet p f :=
  h (flagBit f) (by revert hf; cases f <;> decide)

theorem AgreeOffI.writeFlag (h : AgreeOffI p q) (f : Flag) (v : Bool) :
    AgreeOffI (writeFlag p f v) (writeFlag q f v) := by
  intro k hk
  rw [getLsbD_writeFlag, getLsbD_writeFlag, h k hk]

theorem AgreeOffI.withZN (h : AgreeOffI p q) (v : Byte) : AgreeOffI (withZN p v) (withZN q v) :=
  (h.writeFlag _ _).writeFlag _ _

theorem AgreeOffI.withSum (h : AgreeOffI p q) (r : Sum) : AgreeOffI (withSum p r) (withSum q r) :=
  ((h.writeFlag _ _).writeFlag _ _).withZN _

theorem AgreeOffI.withCompare (h : AgreeOffI p q) (r m : Byte) : AgreeOffI (withCompare p r m) (withCompare q r m) :=
  ((h.writeFlag _ _).writeFlag _ _).writeFlag _ _

theorem AgreeOffI.withBitTest (h : AgreeOffI p q) (a m : Byte) : AgreeOffI (withBitTest p a m) (withBitTest q a m) :=
  ((h.writeFlag _ _).writeFlag _ _).writeFlag _ _

theorem AgreeOffI.withShift (h : AgreeOffI p q) (r : Shifted) : AgreeOffI (withShift p r) (withShift q r) :=
  (h.writeFlag _ _).withZN _

end

/-- `t'` is `t` but for P, which agrees off P.I. -/
def SameOffI (t t' : State) : Prop := ∃ q, t' = t.setP q ∧ AgreeOffI t.p q

/-- ADC and SBC add `b` and C, and write no bit from P.I. -/
theorem SameOffI.sum {s : State} {q : Byte} (h : AgreeOffI s.p q) (mode : Mode) (b : Byte) :
    SameOffI (((s.fetched mode).setA (addWithCarry s.a b (isSet s.p .carry)).result).setP
        (withSum s.p (addWithCarry s.a b (isSet s.p .carry))))
      (((s.fetched mode).setA (addWithCarry s.a b (isSet q .carry)).result).setP
        (withSum q (addWithCarry s.a b (isSet q .carry)))) := by
  rw [h.isSet_eq (f := .carry) (by decide)]
  exact ⟨_, rfl, h.withSum _⟩

theorem SameOffI.shiftWith {s : State} {q : Byte} (h : AgreeOffI s.p q) (f : Byte → Bool → Shifted)
    (op : ShiftOperand) : SameOffI (shiftWith f op s) (shiftWith f op (s.setP q)) := by
  have hc : isSet (s.setP q).p .carry = isSet s.p .carry := h.isSet_eq (by decide)
  cases op with
  | accumulator =>
    refine ⟨withShift q (f s.a (isSet s.p .carry)), ?_, h.withShift _⟩
    rw [Machine.shiftWith, hc]
    rfl
  | mem m =>
    refine ⟨withShift q (f (s.memRead (ea m s)) (isSet s.p .carry)), ?_, h.withShift _⟩
    rw [Machine.shiftWith, hc]
    cases m <;> rfl

theorem SameOffI.branchIf {s : State} {q : Byte} (h : AgreeOffI s.p q) {taken taken' : Bool} (ht : taken' = taken)
    (d : Byte) : SameOffI (branchIf taken d s) (branchIf taken' d (s.setP q)) := by
  rw [ht, branchIf_eq, branchIf_eq]
  exact ⟨q, rfl, h⟩

/-- Two states that differ in P.I alone go to such states, PHP apart. -/
theorem nextState_sameOffI {i : Instr} {s : State} {q : Byte} (hi : i ≠ .php) (h : AgreeOffI s.p q) :
    SameOffI (nextState i s) (nextState i (s.setP q)) := by
  cases i with
  | php => exact absurd rfl hi
  | lda op | ldx op | ldy op | tax | tay | txa | tya | tsx | and op | ora op | eor op | inc op | dec op
  | inx | iny | dex | dey | pla => exact ⟨_, rfl, h.withZN _⟩
  | adc op => rw [nextState_adc, nextState_adc]; exact SameOffI.sum h _ _
  | sbc op => rw [nextState_sbc, nextState_sbc]; exact SameOffI.sum h _ _
  | bit op => exact ⟨_, rfl, h.withBitTest _ _⟩
  | cmp op | cpx op | cpy op => exact ⟨_, rfl, h.withCompare _ _⟩
  | asl op | lsr op | rol op | ror op => exact SameOffI.shiftWith h _ op
  | bpl d | bvc d | bcc d | bne d => exact SameOffI.branchIf h (congrArg not (h.isSet_eq (by decide))) d
  | bmi d | bvs d | bcs d | beq d => exact SameOffI.branchIf h (h.isSet_eq (by decide)) d
  | clc | cli | cld | clv => exact ⟨_, rfl, h.writeFlag _ false⟩
  | sec | sei | sed | brk => exact ⟨_, rfl, h.writeFlag _ true⟩
  | plp | rti => exact ⟨_, rfl, fun _ _ => rfl⟩
  | _ => exact ⟨q, rfl, h⟩

/-- Settles O24: no instruction but PHP looks at P.I. -/
theorem interruptDisableGatesNothing : Obligations.InterruptDisableGatesNothing := by
  unfold Obligations.InterruptDisableGatesNothing
  intro i s s' t hi hs h hexec
  have hs' : s' = s.setP s'.p := by rw [← hs]; rfl
  obtain ⟨q, ht, hq⟩ := nextState_sameOffI hi h
  rw [← nextState_of_exec hexec, hs']
  refine ⟨_, exec_eq_next i _, ?_, ?_⟩
  · rw [ht]; rfl
  · rw [ht]; exact hq

end Sys2Proof.Machine
end

section
/-! The execution loop and the host's calls (46_execution_loop.md, 20_memory.md R79): a step, what a run goes through,
where it ends. -/
namespace Sys2Proof.Machine

open Sys2Proof.Claims

/-! ## Creation -/

/-- Settles O7: the creation state as it is written down. -/
theorem creationState : Obligations.CreationState := by
  unfold Obligations.CreationState
  exact ⟨rfl, rfl, rfl, rfl, rfl, rfl, rfl, rfl, State.memRead_reset⟩

/-- Settles O9: no byte is listed at creation. -/
theorem creationMemoryIsCanonical : Obligations.CreationMemoryIsCanonical := by
  unfold Obligations.CreationMemoryIsCanonical
  rfl

/-! ## One step -/

theorem step_of_running {s : State} (h : s.runState = .running) :
    step s = .next (nextState s.fetchInstr s).haltCheck := by
  rw [step, stepBy_running h, exec_eq_next]
  rfl

theorem step_of_halted {s : State} (h : s.runState = .halted) : step s = .fault .halted := stepBy_halted h

/-- A step that answers is that of a running core. -/
theorem eq_haltCheck_of_step {s t : State} (h : step s = .next t) :
    s.runState = .running ∧ t = (nextState s.fetchInstr s).haltCheck := by
  obtain ⟨hrun, u, hexec, ht⟩ := step_inv h
  exact ⟨hrun, by rw [ht, nextState_of_exec hexec]⟩

/-- Settles O11: decoding from PC on reads the instruction fetched. -/
theorem stepRunsDecodedInstruction : Obligations.StepRunsDecodedInstruction := by
  unfold Obligations.StepRunsDecodedInstruction
  intro s n i rest hrun hdec
  rw [State.eq_fetchInstr_of_decode hdec]
  refine ⟨_, exec_eq_next _ s, ?_⟩
  rw [step_of_running hrun]
  rfl

/-- Settles O13: a running core's execute phase answers. -/
theorem runningCoreAlwaysSteps : Obligations.RunningCoreAlwaysSteps := by
  unfold Obligations.RunningCoreAlwaysSteps
  exact fun s h => ⟨_, step_of_running h⟩

/-- Settles O14: both calls look at the run state first. -/
theorem haltedCoreHasNoStep : Obligations.HaltedCoreHasNoStep := by
  unfold Obligations.HaltedCoreHasNoStep
  intro s h
  exact ⟨step_of_halted h, by rw [hostStep, hostStepBy, h]⟩

/-- On a running core the halt check decides the run state by P[4] (R306). -/
theorem State.haltCheck_halted_iff {u : State} (h : u.runState = .running) :
    u.haltCheck.runState = .halted ↔ u.p.getLsbD 4 = true := by
  rw [State.haltCheck_runState, h, ← show isSet u.p .breakField = u.p.getLsbD 4 from rfl]
  cases isSet u.p .breakField <;> decide

/-- Settles O15: the execute phase leaves the core running, and the halt check follows it. -/
theorem haltedAfterStepIffBreakSet : Obligations.HaltedAfterStepIffBreakSet := by
  unfold Obligations.HaltedAfterStepIffBreakSet
  intro s t h
  obtain ⟨hrun, rfl⟩ := eq_haltCheck_of_step h
  rw [State.haltCheck_halted_iff ((nextState_runState _ s).trans hrun), State.haltCheck_p]

/-- A set P[4] stays set under an instruction that does not pull P: BRK sets it, the others do not write it (R43). -/
theorem nextState_keeps_break {i : Instr} {s : State} (hplp : i ≠ .plp) (hrti : i ≠ .rti)
    (h : s.p.getLsbD 4 = true) : (nextState i s).p.getLsbD 4 = true := by
  cases hb : writesB i with
  | false => exact (nextState_p_getLsbD (k := 4) s hb).trans h
  | true =>
    match i, hb with
    | .brk, _ => exact (getLsbD_setFlag s.p .breakField 4).trans (Bool.or_true _)
    | .plp, _ => exact absurd rfl hplp
    | .rti, _ => exact absurd rfl hrti

/-- Settles O19: P[4] stays set through the instruction, and the halt check reads it. -/
theorem restartedCoreHaltsAfterOneStep : Obligations.RestartedCoreHaltsAfterOneStep := by
  unfold Obligations.RestartedCoreHaltsAfterOneStep
  intro s t addr hbreak h hplp hrti
  rw [haltedAfterStepIffBreakSet _ _ h]
  obtain ⟨-, rfl⟩ := eq_haltCheck_of_step h
  rw [State.haltCheck_p]
  exact nextState_keeps_break hplp hrti hbreak

theorem writesDiag_of_ne_undefined {i : Instr} (h : ∀ op, i ≠ .undefined op) : writesDiag i = false := by
  cases i with
  | undefined op => exact absurd rfl (h op)
  | _ => rfl

theorem nextState_undefined (op : Byte) (s : State) :
    nextState (.undefined op) s = (s.fetched .invalid).emit s.pc op := rfl

/-- Settles O16: the fetched instruction is undefined exactly at the undefined bytes. -/
theorem diagnosticsAreEvents : Obligations.DiagnosticsAreEvents := by
  unfold Obligations.DiagnosticsAreEvents
  intro s t h
  obtain ⟨-, rfl⟩ := eq_haltCheck_of_step h
  split
  case isTrue hmem =>
    rw [State.fetchInstr_of_mem_undefinedOpcodes hmem, nextState_undefined]
    exact ⟨State.haltCheck_diag _,
      ⟨State.haltCheck_a _, State.haltCheck_x _, State.haltCheck_y _, State.haltCheck_sp _⟩, State.haltCheck_p _,
      advanced_of_pc_eq_fetched (m := .invalid) (State.haltCheck_pc _),
      State.memRead_congr (State.haltCheck_mem _)⟩
  case isFalse hmem =>
    rw [State.haltCheck_diag]
    exact nextState_diag s (writesDiag_of_ne_undefined (State.fetchInstr_ne_undefined hmem))

/-! ## Runs -/

/-- A run that was stopped goes on as the longer run does, whatever the step. -/
theorem runBy_add {st : State → Host.Outcome State Fault Refusal} (m n : Nat) {s t : State}
    (h : runBy st m s = .next t) : runBy st (m + n) s = runBy st n t := by
  induction m generalizing s with
  | zero =>
    cases h
    rw [Nat.zero_add]
  | succ m ih =>
    cases hrun : s.runState with
    | halted =>
      rw [runBy_halted _ hrun] at h
      cases h
      rw [runBy_halted _ hrun, runBy_halted _ hrun]
    | running =>
      cases hst : st s with
      | next u =>
        rw [runBy_next m hrun hst] at h
        rw [Nat.succ_add, runBy_next _ hrun hst, ih h]
      | fault r => simp [runBy, hrun, hst] at h
      | refused r => simp [runBy, hrun, hst] at h

/-- Settles O18: the bounded loop composes. -/
theorem stoppedRunContinues : Obligations.StoppedRunContinues := by
  unfold Obligations.StoppedRunContinues
  exact fun m n s t h => runBy_add m n h

/-- A run that begins on a running core and ends on a halted one ends with the step that halted it. -/
theorem break_of_runFor_halted {n : Nat} {s t : State} (hs : s.runState = .running) (h : runFor n s = .next t)
    (ht : t.runState = .halted) : t.p.getLsbD 4 = true := by
  induction n generalizing s with
  | zero =>
    cases h
    rw [hs] at ht
    cases ht
  | succ n ih =>
    have hstep := step_of_running hs
    rw [runFor, runBy_next n hs hstep] at h
    cases hu : (nextState s.fetchInstr s).haltCheck.runState with
    | running => exact ih hu h
    | halted =>
      rw [runBy_halted n hu] at h
      cases h
      exact (haltedAfterStepIffBreakSet _ _ hstep).mp ht

/-- Settles O17: the host starts a run on a running core. -/
theorem endStateHasBreakSet : Obligations.EndStateHasBreakSet := by
  unfold Obligations.EndStateHasBreakSet
  rintro s t addr ⟨n, h, ht⟩
  exact break_of_runFor_halted (s.start_runState addr) h ht

/-- Settles O57: the loop's first step is that of the started core. -/
theorem startRunsFromAddress : Obligations.StartRunsFromAddress := by
  unfold Obligations.StartRunsFromAddress
  intro s addr
  have hrun := s.start_runState addr
  exact ⟨rfl, _, exec_eq_next _ (s.start addr), runBy_next 0 hrun (step_of_running hrun)⟩

/-! ## Loading -/

/-- Loading reaches no part of the state but memory (R79). -/
theorem State.loadBytes_frame (bytes : List Byte) (s : State) (addr : Word) :
    { s.loadBytes addr bytes with mem := s.mem } = s := by
  induction bytes generalizing s addr with
  | nil => rfl
  | cons b bs ih =>
    have h := ih (s.memWrite addr b) (addr + 1)
    exact congrArg (fun u : State => { u with mem := s.mem }) h

/-- The last byte of an image is written over what the bytes before it left. -/
theorem State.loadBytes_append_singleton (bytes : List Byte) (b : Byte) (s : State) (addr : Word) :
    s.loadBytes addr (bytes ++ [b]) = (s.loadBytes addr bytes).memWrite (addr + BitVec.ofNat 16 bytes.length) b := by
  induction bytes generalizing s addr with
  | nil => exact congrArg (s.memWrite · b) (BitVec.add_zero addr).symm
  | cons c bs ih =>
    rw [List.cons_append, State.loadBytes, ih, State.loadBytes, List.length_cons, Nat.add_comm, BitVec.ofNat_add,
      ← BitVec.add_assoc]
    rfl

/-- Settles O58: an image is its bytes written one after the other. -/
theorem loadPlacesImage : Obligations.LoadPlacesImage := by
  unfold Obligations.LoadPlacesImage
  intro bytes s addr
  refine ⟨State.loadBytes_frame bytes s addr, fun b w => ?_, fun w => rfl⟩
  rw [State.load, State.loadBytes_append_singleton, State.memRead_memWrite, State.load]
  simp only [← BitVec.toNat_inj, BitVec.toNat_add, BitVec.toNat_ofNat, Nat.add_mod_mod]

/-- Settles O60: the next fetch reads memory after the store. -/
theorem storedOpcodeIsFetchedNext : Obligations.StoredOpcodeIsFetchedNext := by
  unfold Obligations.StoredOpcodeIsFetchedNext
  intro op s t h hea
  rw [State.opcode?_fetchInstr, ← hea, ← nextState_of_exec h]
  exact congrArg some ((State.memRead_memWrite _ _ _ _).trans (if_pos rfl))

/-! ## The machine under every configuration (00_scope.md R10) -/

theorem addToA_refuse {cfg : Config} {s : State} (hcfg : cfg.decimalPolicy = .refuse) (hd : isSet s.p .decimal = true)
    (mode : Mode) (b : Byte) : addToA cfg mode b s = .refused .decimalArithmetic := by
  simp [addToA, hcfg, hd]

/-- Where DECIMAL_POLICY is ignore, or D is clear, the sum is that of the decided policy. -/
theorem addToA_eq_decided {cfg : Config} {s : State} (h : cfg.decimalPolicy = .ignore ∨ isSet s.p .decimal = false)
    (mode : Mode) (b : Byte) : addToA cfg mode b s = addToA decided mode b s := by
  rw [addToA_decided]
  rcases h with h | h <;> simp [addToA, h]

theorem undefinedIn_refuse {cfg : Config} (h : cfg.undefinedPolicy = .refuse) (op : Byte) (s : State) :
    undefinedIn cfg op s = .refused (.undefinedOpcode s.pc op) := by
  simp only [undefinedIn, h]

theorem undefinedIn_nopDiagnostic {cfg : Config} (h : cfg.undefinedPolicy = .nopDiagnostic) (op : Byte) (s : State) :
    undefinedIn cfg op s = undefinedIn decided op s := by
  rw [undefinedIn_decided]
  simp only [undefinedIn, h]

/-- Only the four readers of a parameter depend on the configuration. -/
theorem execIn_eq_exec {i : Instr} (h : readsParameter i = false) (cfg : Config) (s : State) :
    execIn cfg i s = exec i s := by
  cases i with
  | jmp op =>
    cases op with
    | absolute addr => rfl
    | indirect ptr => cases h
  | adc op | sbc op | undefined op => cases h
  | _ => rfl

theorem stepIn_of_next {cfg : Config} {s u : State} (hrun : s.runState = .running)
    (h : execIn cfg s.fetchInstr s = .next u) : stepIn cfg s = .next u.haltCheck := by
  rw [stepIn, stepBy_running hrun, h]
  rfl

theorem stepIn_of_refused {cfg : Config} {s : State} {r : Refusal} (hrun : s.runState = .running)
    (h : execIn cfg s.fetchInstr s = .refused r) : stepIn cfg s = .refused r := by
  rw [stepIn, stepBy_running hrun, h]
  rfl

/-- Settles O35: clause by clause, the meaning, the step and the run under a configuration. -/
theorem refusePolicies : Obligations.RefusePolicies := by
  unfold Obligations.RefusePolicies
  intro cfg s
  refine ⟨fun op hcfg hd => ⟨addToA_refuse hcfg hd _ _, addToA_refuse hcfg hd _ _⟩,
    fun op h => ⟨addToA_eq_decided h _ _, addToA_eq_decided h _ _⟩, fun b h => undefinedIn_refuse h b s,
    fun b h => undefinedIn_nopDiagnostic h b s, fun i h => execIn_eq_exec h cfg s,
    fun u hrun h => ?next, fun r hrun h => ?refused, fun hhalt => ?halted, congrFun stepIn_decided s,
    fun n => congrFun (congrFun runForIn_decided n) s⟩
  case next =>
    have hstep := stepIn_of_next hrun h
    exact ⟨hstep, fun n => runBy_next n hrun hstep⟩
  case refused =>
    have hstep := stepIn_of_refused hrun h
    exact ⟨hstep, fun n => runBy_refused n hrun hstep⟩
  case halted => exact ⟨stepBy_halted hhalt, fun n => runBy_halted n hhalt⟩

end Sys2Proof.Machine
end

section
/-! Addressing modes (40_addressing_modes.md) as numbers: effective addresses, the pointer of JMP. -/
namespace Sys2Proof.Machine

open Sys2Proof.Claims

/-- A byte read at a word, as the byte at that number. -/
theorem State.memRead_eq_byteAt (s : State) (w : Word) : s.memRead w = byteAt s w.toNat := by
  rw [byteAt, BitVec.ofNat_toNat, BitVec.setWidth_eq]

theorem toNat_zext16 (b : Byte) : (zext16 b).toNat = b.toNat :=
  BitVec.toNat_setWidth_of_le (by decide)

theorem toNat_add_zext16 (w : Word) (b : Byte) : (w + zext16 b).toNat = (w.toNat + b.toNat) % 65536 := by
  rw [BitVec.toNat_add, toNat_zext16]

theorem toNat_zext16_add (b c : Byte) : (zext16 (b + c)).toNat = (b.toNat + c.toNat) % 256 := by
  rw [toNat_zext16, BitVec.toNat_add]

/-- Settles O25: the direct modes, with the sums as numbers. -/
theorem directEffectiveAddresses : Obligations.DirectEffectiveAddresses := by
  unfold Obligations.DirectEffectiveAddresses
  intro s zp addr
  exact ⟨toNat_zext16 zp, toNat_zext16_add zp s.x, toNat_zext16_add zp s.y, rfl, toNat_add_zext16 addr s.x,
    toNat_add_zext16 addr s.y, fun _ => rfl, fun _ => rfl, rfl, fun _ => rfl⟩

/-- Both bytes of a zero-page pointer are read in the zero page (R131, R132, D9). -/
theorem toNat_zeroPagePointer (p : Byte) (s : State) :
    (zeroPagePointer p s).toNat = (byteAt s ((p.toNat + 1) % 256)).toNat * 256 + (byteAt s p.toNat).toNat := by
  rw [zeroPagePointer, toNat_join, State.memRead_eq_byteAt, State.memRead_eq_byteAt, toNat_zext16, toNat_zext16,
    toNat_add_one]

/-- Settles O26: the pointer at `zp + X`, and the pointer at `zp` plus Y. -/
theorem pointerEffectiveAddresses : Obligations.PointerEffectiveAddresses := by
  unfold Obligations.PointerEffectiveAddresses
  intro s zp
  constructor
  · rw [ea, toNat_zeroPagePointer, BitVec.toNat_add, Nat.mod_add_mod]
  · rw [ea, toNat_add_zext16, toNat_zeroPagePointer]

/-- The high byte of JMP's pointer stands in the pointer's page or at the next address (R130). -/
theorem toNat_pointerNext (cfg : Config) (ptr : Word) :
    (pointerNext cfg ptr).toNat =
      if cfg.jmpIndPageWrap then ptr.toNat / 256 * 256 + (ptr.toNat + 1) % 256 else (ptr.toNat + 1) % 65536 := by
  unfold pointerNext
  split
  · rw [toNat_join, toNat_hiByte, toNat_add_one, toNat_loByte, Nat.mod_add_mod]
  · exact BitVec.toNat_add ptr 1

/-- Settles O27: JMP goes to the word at the pointer. -/
theorem indirectJumpTarget : Obligations.IndirectJumpTarget := by
  unfold Obligations.IndirectJumpTarget
  intro cfg ptr s
  refine ⟨_, rfl, ?_, rfl⟩
  rw [State.setPC_pc, jumpTarget, toNat_join, State.memRead_eq_byteAt, State.memRead_eq_byteAt, toNat_pointerNext]

end Sys2Proof.Machine
end

section
/-! Loads, stores, transfers, arithmetic and shifts (41_load_store_transfer.md to 43_shift_rotate.md): one lemma for each
shape of execute phase, then each instruction as one of the shapes. -/
namespace Sys2Proof.Machine

open Sys2Proof.Claims

/-! ## Loads, transfers and counts of a register -/

section
variable {i : Instr} {s : State} {r : Byte}

/-- An execute phase that is the fetch, a write of X and SetZN of it. -/
theorem writesResult_of_exec_eq_setX (hexec : exec i s = .next (((s.fetched i.mode).setX r).setZN r)) :
    WritesResult i s r (fun t => Regs t s.a r s.y s.sp) :=
  writesResult_of_exec_eq_setZN hexec ⟨rfl, rfl, rfl, rfl⟩ rfl rfl rfl ⟨rfl, rfl⟩

/-- An execute phase that is the fetch, a write of Y and SetZN of it. -/
theorem writesResult_of_exec_eq_setY (hexec : exec i s = .next (((s.fetched i.mode).setY r).setZN r)) :
    WritesResult i s r (fun t => Regs t s.a s.x r s.sp) :=
  writesResult_of_exec_eq_setZN hexec ⟨rfl, rfl, rfl, rfl⟩ rfl rfl rfl ⟨rfl, rfl⟩

end

/-- Settles O28: each load is a fetch, a write of its register and SetZN of it. -/
theorem loadsWriteTheirRegister : Obligations.LoadsWriteTheirRegister := by
  unfold Obligations.LoadsWriteTheirRegister
  exact fun op s => ⟨writesResult_of_exec_eq_setA rfl, writesResult_of_exec_eq_setX rfl,
    writesResult_of_exec_eq_setY rfl⟩

/-- Settles O30: each transfer is a fetch, a write of its register and SetZN of it. -/
theorem transfersSetZeroNegative : Obligations.TransfersSetZeroNegative := by
  unfold Obligations.TransfersSetZeroNegative
  exact fun s => ⟨writesResult_of_exec_eq_setX rfl, writesResult_of_exec_eq_setY rfl,
    writesResult_of_exec_eq_setA rfl, writesResult_of_exec_eq_setA rfl⟩

/-- Settles O31: TSX is a transfer to X, TXS a write of SP alone. -/
theorem stackPointerTransfers : Obligations.StackPointerTransfers := by
  unfold Obligations.StackPointerTransfers
  exact fun s => ⟨writesResult_of_exec_eq_setX rfl, _, rfl, ⟨rfl, rfl, rfl, rfl⟩, rfl,
    advanced_of_pc_eq_fetched (m := .implicit) rfl, State.memRead_congr rfl, rfl, rfl⟩

/-- Settles O40: each count is a fetch, a write of its register and SetZN of it. -/
theorem registerIncrementDecrement : Obligations.RegisterIncrementDecrement := by
  unfold Obligations.RegisterIncrementDecrement
  exact fun s => ⟨s.x + 1, s.y + 1, s.x - 1, s.y - 1, toNat_add_one _, toNat_add_one _, toNat_sub_one _,
    toNat_sub_one _, writesResult_of_exec_eq_setX rfl, writesResult_of_exec_eq_setY rfl,
    writesResult_of_exec_eq_setX rfl, writesResult_of_exec_eq_setY rfl⟩

/-! ## One byte of memory -/

/-- What O29 says of one store. -/
theorem stores_of_exec_eq_memWrite {i : Instr} {s : State} {op : MemOperand} {v : Byte}
    (hexec : exec i s = .next ((s.fetched i.mode).memWrite (ea op s) v)) :
    ∃ t, exec i s = .next t ∧ Stores s t (ea op s) v ∧ Regs t s.a s.x s.y s.sp ∧ t.p = s.p ∧
      Advanced s t i.length ∧ SameLoop s t :=
  ⟨_, hexec, State.memWrite_stores _ _ v, ⟨rfl, rfl, rfl, rfl⟩, rfl, advanced_of_pc_eq_fetched rfl, rfl, rfl⟩

/-- Settles O29: each store is a fetch and a write of its register at the effective address. -/
theorem storesWriteOneByte : Obligations.StoresWriteOneByte := by
  unfold Obligations.StoresWriteOneByte
  intro op s
  simp only [List.forall_mem_cons]
  exact ⟨stores_of_exec_eq_memWrite rfl, stores_of_exec_eq_memWrite rfl, stores_of_exec_eq_memWrite rfl, nofun⟩

/-- What O39 says of one count of memory. -/
theorem counts_of_exec_eq_storeResult {i : Instr} {s : State} {op : MemOperand} {r : Byte} {n : Nat}
    (hexec : exec i s = .next (storeResult op r s)) (hmode : op.mode = i.mode)
    (hr : r.toNat = ((s.memRead (ea op s)).toNat + n) % 256) :
    ∃ t r, exec i s = .next t ∧ r.toNat = ((s.memRead (ea op s)).toNat + n) % 256 ∧
      Stores s t (ea op s) r ∧ ZeroNegative s.p t.p r ∧ Regs t s.a s.x s.y s.sp ∧
      Advanced s t i.length ∧ SameLoop s t :=
  ⟨_, r, hexec, hr, memRead_storeResult op r s, zeroNegative_withZN s.p r, ⟨rfl, rfl, rfl, rfl⟩,
    advanced_of_pc_eq_fetched (congrArg (fun m => (s.fetched m).pc) hmode), rfl, rfl⟩

/-- Settles O39: INC and DEC store the byte plus or minus one. -/
theorem memoryIncrementDecrement : Obligations.MemoryIncrementDecrement := by
  unfold Obligations.MemoryIncrementDecrement
  intro op s
  simp only [List.forall_mem_cons]
  exact ⟨counts_of_exec_eq_storeResult rfl rfl (toNat_add_one _),
    counts_of_exec_eq_storeResult rfl rfl (toNat_sub_one _), nofun⟩

/-! ## ADC and SBC -/

/-- P after ADC or SBC: C and V of the sum, Z and N of its result, no other bit (R180, R182). -/
theorem sumFlags_withSum (p : Byte) (r : Sum) : SumFlags p (withSum p r) r.carry r.overflow r.result := by
  refine ⟨getLsbD_withSum p r 0, getLsbD_withSum p r 6, ?zero, ?negative,
    fun k h0 h1 h6 h7 => getLsbD_withSum_of_ne h0 h1 h6 h7 p r⟩
  case zero => exact (getLsbD_withSum p r 1).trans (beq_zero_eq_decide_toNat r.result)
  case negative => exact (getLsbD_withSum p r 7).trans (getLsbD_seven r.result)

/-- An execute phase that adds `b` and C to A, its carry and overflow being `c` and `v`. -/
theorem sum_of_exec_eq_setP_withSum {i : Instr} {s : State} {b : Byte} {c v : Bool}
    (hexec : exec i s = .next (((s.fetched i.mode).setA (addWithCarry s.a b (isSet s.p .carry)).result).setP
      (withSum s.p (addWithCarry s.a b (isSet s.p .carry)))))
    (hc : (addWithCarry s.a b (isSet s.p .carry)).carry = c)
    (hv : (addWithCarry s.a b (isSet s.p .carry)).overflow = v) :
    ∃ t, exec i s = .next t ∧ Regs t (addWithCarry s.a b (isSet s.p .carry)).result s.x s.y s.sp ∧
      SumFlags s.p t.p c v (addWithCarry s.a b (isSet s.p .carry)).result ∧ Advanced s t i.length ∧
      SameMemory s t ∧ SameLoop s t := by
  subst hc hv
  exact ⟨_, hexec, ⟨rfl, rfl, rfl, rfl⟩, sumFlags_withSum _ _, advanced_of_pc_eq_fetched rfl, State.memRead_congr rfl,
    rfl, rfl⟩

theorem addWithCarry_overflow_eq_decide (a b : Byte) (cin : Bool) :
    (addWithCarry a b cin).overflow =
      decide (a.toInt + b.toInt + (cin.toNat : Int) < -128 ∨ 127 < a.toInt + b.toInt + (cin.toNat : Int)) :=
  Bool.eq_iff_iff.mpr ((addWithCarry_overflow_iff_signed a b cin).trans decide_eq_true_iff.symm)

/-- Settles O33: ADC adds the operand and C. -/
theorem addWritesSumAndFlags : Obligations.AddWritesSumAndFlags := by
  unfold Obligations.AddWritesSumAndFlags
  intro op s
  obtain ⟨t, hexec, hregs, hflags, hrest⟩ := sum_of_exec_eq_setP_withSum (i := .adc op)
    (addToA_decided _ (readOperand op s) s) rfl (addWithCarry_overflow_eq_decide _ _ _)
  exact ⟨t, _, hexec, addWithCarry_result_toNat _ _ _, hregs, hflags, hrest⟩

/-- The one's complement of a byte, as a signed number. -/
theorem toInt_not (b : Byte) : (~~~ b).toInt = -b.toInt - 1 := by
  have := b.isLt
  rw [BitVec.toInt_eq_toNat_cond, BitVec.toInt_eq_toNat_cond, BitVec.toNat_not]
  omega

theorem toNat_not (b : Byte) : (~~~ b).toNat = 255 - b.toNat := BitVec.toNat_not

/-- The carry of an addition of the one's complement is the absence of a borrow (R183). -/
theorem addWithCarry_not_carry (a m : Byte) (cin : Bool) :
    (addWithCarry a (~~~ m) cin).carry = decide (0 ≤ (a.toNat : Int) - m.toNat - (1 - (cin.toNat : Int))) := by
  have := m.isLt
  refine decide_eq_decide.mpr ?_
  rw [toNat_not]
  omega

theorem addWithCarry_not_overflow (a m : Byte) (cin : Bool) :
    (addWithCarry a (~~~ m) cin).overflow =
      decide (a.toInt - m.toInt - (1 - (cin.toNat : Int)) < -128 ∨
        127 < a.toInt - m.toInt - (1 - (cin.toNat : Int))) := by
  rw [addWithCarry_overflow_eq_decide, toInt_not, decide_eq_decide]
  omega

theorem addWithCarry_not_result_toNat (a m : Byte) (cin : Bool) :
    ((addWithCarry a (~~~ m) cin).result.toNat : Int) =
      ((a.toNat : Int) - m.toNat - (1 - (cin.toNat : Int))) % 256 := by
  have := m.isLt
  rw [addWithCarry_result_toNat, toNat_not]
  omega

/-- Settles O34: SBC adds the one's complement of the operand and C. -/
theorem subtractWritesDifferenceAndFlags : Obligations.SubtractWritesDifferenceAndFlags := by
  unfold Obligations.SubtractWritesDifferenceAndFlags
  intro op s
  obtain ⟨t, hexec, hregs, hflags, hrest⟩ := sum_of_exec_eq_setP_withSum (i := .sbc op)
    (addToA_decided _ (~~~ readOperand op s) s) (addWithCarry_not_carry _ _ _) (addWithCarry_not_overflow _ _ _)
  exact ⟨t, _, hexec, addWithCarry_not_result_toNat _ _ _, hregs, hflags, hrest⟩

/-! ## Bit test and compares -/

/-- Settles O37: P after BIT, bit by bit. -/
theorem bitTestFlags : Obligations.BitTestFlags := by
  unfold Obligations.BitTestFlags
  intro op s
  refine ⟨_, rfl, ⟨rfl, rfl, rfl, rfl⟩, ?_, getLsbD_withBitTest _ _ _ 7, getLsbD_withBitTest _ _ _ 6,
    fun k h1 h6 h7 => getLsbD_withBitTest_of_ne h1 h6 h7 _ _ _, advanced_of_pc_eq_fetched rfl,
    State.memRead_congr rfl, rfl, rfl⟩
  exact (getLsbD_withBitTest _ _ _ 1).trans (beq_zero_eq_decide_toNat _)

/-- An execute phase that is the fetch and the flags of `reg` less `m`. -/
theorem compares_of_exec_eq_withCompare {i : Instr} {s : State} {reg m : Byte}
    (hexec : exec i s = .next ((s.fetched i.mode).setP (withCompare s.p reg m))) : Compares i s reg m := by
  refine ⟨_, hexec, ⟨rfl, rfl, rfl, rfl⟩, getLsbD_withCompare _ _ _ 0, ?zero, ?negative,
    fun k h0 h1 h7 => getLsbD_withCompare_of_ne h0 h1 h7 _ _ _, advanced_of_pc_eq_fetched rfl,
    State.memRead_congr rfl, rfl, rfl⟩
  case zero => exact (getLsbD_withCompare _ _ _ 1).trans (Bool.beq_eq_decide_eq reg m)
  case negative =>
    rw [State.setP_p, getLsbD_withCompare, if_pos rfl, getLsbD_seven, BitVec.toNat_sub, decide_eq_decide]
    have := m.isLt
    omega

/-- Settles O38: each compare is a fetch and the flags of its subtraction. -/
theorem comparesSetFlagsOnly : Obligations.ComparesSetFlagsOnly := by
  unfold Obligations.ComparesSetFlagsOnly
  exact fun op s => ⟨compares_of_exec_eq_withCompare rfl, compares_of_exec_eq_withCompare rfl,
    compares_of_exec_eq_withCompare rfl⟩

/-! ## Shifts and rotates -/

/-- P after a shift or rotate: C the bit shifted out, Z and N of the result, no other bit (R220). -/
theorem carryZeroNegative_withShift (p : Byte) (r : Shifted) :
    CarryZeroNegative p (withShift p r) r.carry r.result := by
  refine ⟨getLsbD_withShift p r 0, ?zero, ?negative,
    fun k h0 h1 h7 => getLsbD_withShift_of_ne h0 h1 h7 p r⟩
  case zero => exact (getLsbD_withShift p r 1).trans (beq_zero_eq_decide_toNat r.result)
  case negative => exact (getLsbD_withShift p r 7).trans (getLsbD_seven r.result)

/-- An instruction of the common rule of R220 shifts by what its function of byte and carry does. -/
theorem shifts_of_exec_eq_shiftWith {i : ShiftOperand → Instr} {f : Byte → Bool → Shifted} {res : Nat → Nat → Nat}
    {out : Byte → Bool} (hexec : ∀ op s, exec (i op) s = .next (shiftWith f op s))
    (hmode : ∀ op, op.mode = (i op).mode) (hres : ∀ v c, (f v c).result.toNat = res v.toNat c.toNat)
    (hout : ∀ v c, (f v c).carry = out v) :
    Shifts i res out := by
  intro op s
  have hpc : (shiftWith f op s).pc = (s.fetched (i op).mode).pc := by rw [shiftWith_pc, hmode]
  refine ⟨_, _, hexec op s, hres (loadTarget op s) (isSet s.p .carry), ?flags, ?target,
    advanced_of_pc_eq_fetched hpc, ?loop⟩
  case flags =>
    rw [← hout _ (isSet s.p .carry)]
    exact carryZeroNegative_withShift s.p _
  case target =>
    cases op with
    | accumulator => exact ⟨⟨rfl, rfl, rfl, rfl⟩, memRead_shiftWith f .accumulator s⟩
    | mem m => exact ⟨⟨rfl, rfl, rfl, rfl⟩, memRead_shiftWith f (.mem m) s⟩
  case loop => cases op <;> exact ⟨rfl, rfl⟩

theorem toNat_carryByte (c : Bool) : (carryByte c).toNat = c.toNat := by
  cases c <;> rfl

theorem shiftLeft_result_toNat (v : Byte) (c : Bool) : (shiftLeft v c).result.toNat = v.toNat * 2 % 256 := by
  rw [shiftLeft, BitVec.toNat_shiftLeft, Nat.shiftLeft_eq]

theorem shiftRight_result_toNat (v : Byte) (c : Bool) : (shiftRight v c).result.toNat = v.toNat / 2 :=
  BitVec.toNat_ushiftRight v 1

/-- The carry enters the bit that the shift cleared. -/
theorem rotateLeft_result_toNat (v : Byte) (c : Bool) :
    (rotateLeft v c).result.toNat = v.toNat * 2 % 256 + c.toNat := by
  have hshift : v.toNat * 2 % 256 = 2 ^ 1 * (v.toNat % 128) := by omega
  rw [rotateLeft, BitVec.toNat_or, BitVec.toNat_shiftLeft, Nat.shiftLeft_eq, toNat_carryByte]
  change v.toNat * 2 % 256 ||| c.toNat = _
  rw [hshift, Nat.two_pow_add_eq_or_of_lt c.toNat_lt]

theorem rotateRight_result_toNat (v : Byte) (c : Bool) :
    (rotateRight v c).result.toNat = v.toNat / 2 + c.toNat * 128 := by
  have hcarry : (carryByte c <<< 7).toNat = 2 ^ 7 * c.toNat := by cases c <;> rfl
  have hshift : (v >>> 1).toNat = v.toNat / 2 := BitVec.toNat_ushiftRight v 1
  have hlt : v.toNat / 2 < 2 ^ 7 := by have := v.isLt; omega
  rw [rotateRight, BitVec.toNat_or, hshift, hcarry, Nat.or_comm, ← Nat.two_pow_add_eq_or_of_lt hlt, Nat.add_comm,
    Nat.mul_comm]

/-- Settles O41: the four by the common rule. -/
theorem shiftsAndRotates : Obligations.ShiftsAndRotates := by
  unfold Obligations.ShiftsAndRotates
  exact ⟨shifts_of_exec_eq_shiftWith (fun _ _ => rfl) (fun _ => rfl) shiftLeft_result_toNat fun _ _ => rfl,
    shifts_of_exec_eq_shiftWith (fun _ _ => rfl) (fun _ => rfl) shiftRight_result_toNat fun _ _ => rfl,
    shifts_of_exec_eq_shiftWith (fun _ _ => rfl) (fun _ => rfl) rotateLeft_result_toNat fun _ _ => rfl,
    shifts_of_exec_eq_shiftWith (fun _ _ => rfl) (fun _ => rfl) rotateRight_result_toNat fun _ _ => rfl⟩

end Sys2Proof.Machine
end

section
/-! Control transfer, the stack, the flag instructions, NOP and undefined opcodes (44_control_transfer.md,
45_stack_flag_misc.md). -/
namespace Sys2Proof.Machine

open Sys2Proof.Claims

/-! ## Branches and JMP -/

theorem add_one_add_ofNat_one (w : Word) : w + 1 + BitVec.ofNat 16 1 = w + 2 := BitVec.add_assoc w 1 1

/-- The target of a branch, with its displacement as a signed number (R133). -/
theorem toNat_branchTarget (d : Byte) (s : State) :
    ((branchTarget d s).toNat : Int) = ((s.pc.toNat : Int) + 2 + d.toInt) % 65536 := by
  have htarget : branchTarget d s = s.pc + 2 + sext16 d := congrArg (· + sext16 d) (add_one_add_ofNat_one s.pc)
  rw [htarget, BitVec.toNat_add, BitVec.toNat_add, sext16, BitVec.signExtend, BitVec.toNat_ofInt]
  have htwo : (2 : Word).toNat = 2 := rfl
  omega

/-- An instruction of the common rule of R240, on one bit of P. -/
theorem branches_of_exec_eq_branchIf {i : Byte → Instr} {k : Nat} {v : Bool}
    (hexec : ∀ d s, exec (i d) s = .next (branchIf (s.p.getLsbD k == v) d s)) : Branches i k v := by
  intro d s
  refine ⟨_, (hexec d s).trans (congrArg _ (branchIf_eq _ d s)), ?_, ⟨rfl, rfl, rfl, rfl⟩, rfl,
    State.memRead_congr rfl, rfl, rfl⟩
  simp only [State.setPC_pc, beq_iff_eq]
  split
  · exact toNat_branchTarget d s
  · rw [BitVec.toNat_add]
    rfl

/-- A branch where bit `k` is 1. -/
theorem branches_of_exec_eq_branchIf_set {i : Byte → Instr} {k : Nat}
    (hexec : ∀ d s, exec (i d) s = .next (branchIf (s.p.getLsbD k) d s)) : Branches i k true :=
  branches_of_exec_eq_branchIf fun d s => by rw [beq_true, hexec]

/-- A branch where bit `k` is 0. -/
theorem branches_of_exec_eq_branchIf_clear {i : Byte → Instr} {k : Nat}
    (hexec : ∀ d s, exec (i d) s = .next (branchIf (!s.p.getLsbD k) d s)) : Branches i k false :=
  branches_of_exec_eq_branchIf fun d s => by rw [beq_false, hexec]

/-- Settles O42: each branch tests one bit, for 1 or for 0. -/
theorem branchesFollowTheirFlag : Obligations.BranchesFollowTheirFlag := by
  unfold Obligations.BranchesFollowTheirFlag
  exact ⟨branches_of_exec_eq_branchIf_clear fun _ _ => rfl, branches_of_exec_eq_branchIf_set fun _ _ => rfl,
    branches_of_exec_eq_branchIf_clear fun _ _ => rfl, branches_of_exec_eq_branchIf_set fun _ _ => rfl,
    branches_of_exec_eq_branchIf_clear fun _ _ => rfl, branches_of_exec_eq_branchIf_set fun _ _ => rfl,
    branches_of_exec_eq_branchIf_clear fun _ _ => rfl, branches_of_exec_eq_branchIf_set fun _ _ => rfl⟩

/-- Settles O43: JMP is a write of PC, to the operand or to the word at the pointer. -/
theorem jumpSetsPC : Obligations.JumpSetsPC := by
  unfold Obligations.JumpSetsPC
  intro s
  refine ⟨fun addr => ⟨_, rfl, rfl, ⟨rfl, rfl, rfl, rfl⟩, rfl, State.memRead_congr rfl, rfl, rfl⟩, fun ptr => ?_⟩
  obtain ⟨t, hexec, hpc, hframe⟩ := indirectJumpTarget decided ptr s
  cases hexec
  exact ⟨_, rfl, hpc, ⟨rfl, rfl, rfl, rfl⟩, rfl, State.memRead_congr rfl, rfl, rfl⟩

/-! ## Calls and returns -/

/-- The return address that JSR pushes is that of its last byte (R250). -/
theorem nextState_jsr (addr : Word) (s : State) :
    nextState (.jsr addr) s =
      (((s.fetched .absolute).push (hiByte (s.pc + 2))).push (loByte (s.pc + 2))).setPC addr := by
  have hret : (s.fetched .absolute).pc - 1 = s.pc + 2 := by
    rw [State.fetched_pc]
    change s.pc + 1 + 2 - 1 = s.pc + 2
    rw [BitVec.add_assoc, BitVec.add_comm 1, ← BitVec.add_assoc, BitVec.add_sub_cancel]
  rw [← hret]
  rfl

theorem memRead_nextState_jsr (addr : Word) (s : State) (w : Word) :
    (nextState (.jsr addr) s).memRead w =
      if w = stackAddr (s.sp - 1) then loByte (s.pc + 2)
      else if w = stackAddr s.sp then hiByte (s.pc + 2) else s.memRead w := by
  rw [nextState_jsr]
  change (((s.fetched .absolute).push _).push _).memRead w = _
  rw [State.memRead_push, State.memRead_push]
  rfl

/-- Settles O44: JSR is two pushes and a write of PC. -/
theorem callPushesReturnAddress : Obligations.CallPushesReturnAddress := by
  unfold Obligations.CallPushesReturnAddress
  intro addr s
  refine ⟨_, exec_eq_next _ s, rfl, rfl, rfl, rfl, rfl, ?_, fun w => ?_, rfl, rfl⟩
  · change (s.sp - 1 - 1).toNat = _
    rw [toNat_sub_one, toNat_sub_one]
    omega
  · have hpc : (s.pc + 2).toNat = (s.pc.toNat + 2) % 65536 := BitVec.toNat_add s.pc 2
    simp only [memRead_nextState_jsr, eq_stackAddr_iff, stackAt, ← hpc]
    split_ifs
    · exact toNat_loByte _
    · exact toNat_hiByte _
    · rfl

theorem add_one_add_one_byte (b : Byte) : b + 1 + 1 = b + 2 := BitVec.add_assoc b 1 1

/-- RTS goes to the pulled word plus one (R251). -/
theorem nextState_rts (s : State) :
    nextState .rts s = ((s.fetched .implicit).setSP (s.sp + 2)).setPC
      (join (s.memRead (stackAddr (s.sp + 2))) (s.memRead (stackAddr (s.sp + 1))) + 1) := by
  rw [← add_one_add_one_byte]
  rfl

/-- Settles O45: RTS is two pulls and a write of PC. -/
theorem returnPullsAddressPlusOne : Obligations.ReturnPullsAddressPlusOne := by
  unfold Obligations.ReturnPullsAddressPlusOne
  intro s
  refine ⟨_, exec_eq_next _ s, ?_⟩
  rw [nextState_rts]
  refine ⟨?_, ⟨rfl, rfl, rfl, rfl⟩, rfl, State.memRead_congr rfl, rfl, rfl⟩
  rw [State.setPC_pc, BitVec.toNat_add, toNat_join, memRead_stackAddr, memRead_stackAddr]
  rfl

/-- The two bytes that JSR leaves above SP are its return address, which RTS joins again. -/
theorem memRead_above_sp_nextState_jsr (addr : Word) (s : State) :
    (nextState (.jsr addr) s).memRead (stackAddr (s.sp - 1)) = loByte (s.pc + 2) ∧
      (nextState (.jsr addr) s).memRead (stackAddr s.sp) = hiByte (s.pc + 2) := by
  have hne : stackAddr s.sp ≠ stackAddr (s.sp - 1) := by
    intro h
    have hsp := congrArg BitVec.toNat (stackAddr_inj h)
    rw [toNat_sub_one] at hsp
    omega
  rw [memRead_nextState_jsr, memRead_nextState_jsr, if_pos rfl, if_neg hne, if_pos rfl]
  exact ⟨rfl, rfl⟩

/-- Settles O46: the word RTS pulls is the one JSR pushed. -/
theorem callThenReturn : Obligations.CallThenReturn := by
  unfold Obligations.CallThenReturn
  intro addr s t u hcall hsp hstack
  obtain rfl := nextState_of_exec hcall
  have hsp1 : (nextState (.jsr addr) s).sp + 1 = s.sp - 1 := BitVec.sub_add_cancel (s.sp - 1) 1
  have hsp2 : (nextState (.jsr addr) s).sp + 2 = s.sp := by
    rw [← add_one_add_one_byte, hsp1, BitVec.sub_add_cancel]
  have hbyte (k : Byte) (hk) : u.memRead (stackAddr k) = (nextState (.jsr addr) s).memRead (stackAddr k) :=
    (memRead_stackAddr u k).trans ((hstack k hk).trans (memRead_stackAddr _ k).symm)
  obtain ⟨hlo, hhi⟩ := memRead_above_sp_nextState_jsr addr s
  refine ⟨_, exec_eq_next .rts u, ?_⟩
  rw [nextState_rts, hsp, hbyte _ (.inr rfl), hbyte _ (.inl rfl), hsp1, hsp2, hlo, hhi, join_hiByte_loByte]
  refine ⟨?_, rfl⟩
  rw [State.setPC_pc, BitVec.add_assoc]
  exact BitVec.toNat_add s.pc 3

/-- Settles O48: RTI is three pulls. -/
theorem returnFromInterruptRestores : Obligations.ReturnFromInterruptRestores := by
  unfold Obligations.ReturnFromInterruptRestores
  intro s
  have h3 : s.sp + 1 + 1 + 1 = s.sp + 3 := by rw [add_one_add_one_byte]; exact BitVec.add_assoc s.sp 1 2
  refine ⟨_, rfl, memRead_stackAddr _ _, ?_, ⟨rfl, rfl, rfl, h3⟩, State.memRead_congr rfl, rfl, rfl⟩
  rw [← h3, ← add_one_add_one_byte]
  exact (toNat_join _ _).trans (by rw [State.pullByte, State.pullByte, memRead_stackAddr, memRead_stackAddr]; rfl)

/-! ## BRK, the stack and the flag instructions -/

/-- Settles O47: BRK is a write of the Break field, bits 4 and 5. -/
theorem breakSetsBreakField : Obligations.BreakSetsBreakField := by
  unfold Obligations.BreakSetsBreakField
  intro s
  have hbit (k : Nat) : (setFlag s.p .breakField).getLsbD k =
      (s.p.getLsbD k || (decide (k = 4) || decide (k = 5))) := by
    rw [getLsbD_setFlag, getLsbD_flagMask_breakField]
  exact ⟨_, rfl, (hbit 4).trans (Bool.or_true _), (hbit 5).trans (Bool.or_true _),
    fun k h4 h5 => getLsbD_setFlag_breakField_of_ne h4 h5 s.p, ⟨rfl, rfl, rfl, rfl⟩,
    advanced_of_pc_eq_fetched (m := .implicit) rfl, State.memRead_congr rfl, rfl, rfl⟩

/-- An execute phase that is the fetch and a push. -/
theorem pushes_of_exec_eq_push {i : Instr} {s : State} {v : Byte}
    (hexec : exec i s = .next ((s.fetched .implicit).push v)) : Pushes i s v := by
  obtain ⟨hmem, hsp, -⟩ := (s.fetched .implicit).push_spec v
  exact ⟨_, hexec, rfl, rfl, rfl, rfl, hsp, hmem, advanced_of_pc_eq_fetched (m := .implicit) rfl, rfl, rfl⟩

/-- Settles O50: PHA is a fetch and a push of A. -/
theorem pushAccumulator : Obligations.PushAccumulator := by
  unfold Obligations.PushAccumulator
  exact fun s => pushes_of_exec_eq_push rfl

/-- Settles O51: PHP is a fetch and a push of P. -/
theorem pushStatusVerbatim : Obligations.PushStatusVerbatim := by
  unfold Obligations.PushStatusVerbatim
  exact fun s => pushes_of_exec_eq_push rfl

/-- The byte a pull gives, at the stack address of the raised SP. -/
theorem State.pullByte_eq_stackAt (s : State) : s.pullByte = byteAt s (stackAt (s.sp + 1)) :=
  memRead_stackAddr s (s.sp + 1)

/-- Settles O52: PLA is a pull, a write of A and SetZN of it. -/
theorem pullAccumulator : Obligations.PullAccumulator := by
  unfold Obligations.PullAccumulator
  intro s
  rw [← State.pullByte_eq_stackAt]
  exact writesResult_of_exec_eq_setZN (u := ((s.fetched .implicit).pulled).setA s.pullByte) rfl ⟨rfl, rfl, rfl, rfl⟩
    rfl rfl rfl ⟨rfl, rfl⟩

/-- Settles O53: PLP is a pull and a write of P. -/
theorem pullStatusVerbatim : Obligations.PullStatusVerbatim := by
  unfold Obligations.PullStatusVerbatim
  exact fun s => ⟨_, rfl, s.pullByte_eq_stackAt, ⟨rfl, rfl, rfl, rfl⟩,
    advanced_of_pc_eq_fetched (m := .implicit) rfl, State.memRead_congr rfl, rfl, rfl⟩

/-- An instruction that is the fetch and a write of one flag of one bit. -/
theorem writesOneFlag_of_exec_eq_writeFlag {i : Instr} {f : Flag} {v : Bool} (hf : f ≠ .breakField)
    (hexec : ∀ s, exec i s = .next ((s.fetched .implicit).setP (writeFlag s.p f v))) :
    WritesOneFlag i (flagBit f) v := by
  intro s
  refine ⟨_, hexec s, ?_, fun j hj => ?_, ⟨rfl, rfl, rfl, rfl⟩, advanced_of_pc_eq_fetched (m := .implicit) rfl,
    State.memRead_congr rfl, rfl, rfl⟩
  · rw [State.setP_p, getLsbD_writeFlag_bit _ _ hf, if_pos rfl]
  · rw [State.setP_p, getLsbD_writeFlag_bit _ _ hf, if_neg hj]

/-- Settles O54: the flag and the value that each of the seven writes. -/
theorem flagInstructions : Obligations.FlagInstructions := by
  unfold Obligations.FlagInstructions
  exact ⟨writesOneFlag_of_exec_eq_writeFlag (f := .carry) (by decide) fun _ => rfl,
    writesOneFlag_of_exec_eq_writeFlag (f := .carry) (by decide) fun _ => rfl,
    writesOneFlag_of_exec_eq_writeFlag (f := .interruptDisable) (by decide) fun _ => rfl,
    writesOneFlag_of_exec_eq_writeFlag (f := .interruptDisable) (by decide) fun _ => rfl,
    writesOneFlag_of_exec_eq_writeFlag (f := .decimal) (by decide) fun _ => rfl,
    writesOneFlag_of_exec_eq_writeFlag (f := .decimal) (by decide) fun _ => rfl,
    writesOneFlag_of_exec_eq_writeFlag (f := .overflow) (by decide) fun _ => rfl⟩

/-- Settles O55: NOP is the fetch. -/
theorem nopAdvancesOnly : Obligations.NopAdvancesOnly := by
  unfold Obligations.NopAdvancesOnly
  exact fun s => ⟨_, rfl, advanced_of_pc_eq_fetched (m := .implicit) rfl, rfl⟩

/-- Settles O56: an undefined opcode is the fetch and a diagnostic. -/
theorem undefinedEmitsDiagnostic : Obligations.UndefinedEmitsDiagnostic := by
  unfold Obligations.UndefinedEmitsDiagnostic
  exact fun op s => ⟨_, undefinedIn_decided op s, rfl, advanced_of_pc_eq_fetched (m := .invalid) rfl, rfl⟩

end Sys2Proof.Machine
end
